-- ==== Sys2Proof/Word.lean ====
section
/-! DEFINITION. The plainest data of the block: bytes, code points, glyphs (00_scope.md R6 to R8). -/

namespace Sys2Proof

/-- One byte, 8 bits, unsigned, bit 0 the least significant (R8, R90). -/
abbrev Byte := BitVec 8

/-- A code point `CP`, 0..0x10FFFF (R6, D26). -/
abbrev CodePoint := Fin 0x110000

/-- A glyph: five column bytes `g[0..4]`, `g[0]` at the lowest column index (R63, R66). -/
structure Glyph where
  g0 : Byte
  g1 : Byte
  g2 : Byte
  g3 : Byte
  g4 : Byte
deriving DecidableEq, Repr, Inhabited

/-- The five columns in the order in which they are appended (R66). -/
def Glyph.columns (g : Glyph) : List Byte := [g.g0, g.g1, g.g2, g.g3, g.g4]

/-- `PAGE_WIDTH`, 166 columns (R6). -/
abbrev pageWidth : Nat := 166

/-- `ESC`, the escape introducer (R6). -/
abbrev escByte : Byte := 0x1B#8

/-- The terminator LF of `TERM` (R6). -/
abbrev lfByte : Byte := 0x0A#8

/-- The terminator EOL of `TERM` (R6). -/
abbrev eolByte : Byte := 0x04#8

/-- `UL_BIT`, the underline bit (R6). -/
abbrev ulBit : Byte := 0x80#8

end Sys2Proof
end

