-- ==== Sys2Proof/Config.lean ====
section
/-! DEFINITION. The configuration of R6: the session's parameters as plain data (one value of `Config` is one
configuration; State carries it and no step writes it, log 1), and the tables whose contents no source gives, as
opaque constants shared by all sessions (R34, R77; log 6 to 9 and 11). -/

namespace Sys2Proof

/-- The three character-set tables (R120). -/
inductive Charset where
  | native | alt | focal
deriving DecidableEq, Repr, Inhabited

/-- The three font tables (R63). -/
inductive Font where
  | font0 | font1 | font2
deriving DecidableEq, Repr, Inhabited

/-- The five named codes whose bytes the source does not give (R96, N3). -/
inductive OpenCode where
  | selfTest | startUnderline | stopUnderline | startAltCharset | stopAltCharset
deriving DecidableEq, Repr, Inhabited

/-- `ESC_MAP` as its inverse on the five open bytes: the code bound to 0xF8, 0xF9, 0xFA, 0xFB and 0xFE. RESET,
START_DOUBLE_WIDE and STOP_DOUBLE_WIDE are fixed (R96). Only bijections can be built, as R141 asks. -/
structure EscMap where
  f8 : OpenCode
  f9 : OpenCode
  fa : OpenCode
  fb : OpenCode
  fe : OpenCode
  bijective : [f8, f9, fa, fb, fe].Nodup
deriving DecidableEq, Repr

/-- The default binding of the five open codes (R96, R142). PRESUMED (the spec's GK1, not in source), log 2. -/
def EscMap.default : EscMap :=
  ⟨.stopAltCharset, .startAltCharset, .stopUnderline, .startUnderline, .selfTest, by decide⟩

/-- `GFX_ZERO_POLICY` (R182, D11). -/
inductive GfxZeroPolicy where
  | immediate | oneByte | wrap256 | never
deriving DecidableEq, Repr, Inhabited

/-- What `ZeroCount()` does: one of the three actions of R204. -/
inductive ZeroCountAction where
  | toText | wrap | stay
deriving DecidableEq, Repr, Inhabited

/-- `FIRST_TEST` (R249, D12). -/
inductive FirstTest where
  | columnZero | textEmpty
deriving DecidableEq, Repr, Inhabited

/-- `PAD_DOUBLE` (R243, D13). -/
inductive PadDouble where
  | doubled | single
deriving DecidableEq, Repr, Inhabited

/-- `AFTER_PAD_RULE` (R244, D14). -/
inductive AfterPadRule where
  | ifRoom | ifNotLast
deriving DecidableEq, Repr, Inhabited

/-- `DUP_OVERFLOW` (R203, D15). -/
inductive DupOverflow where
  | discard | flushThenWrite
deriving DecidableEq, Repr, Inhabited

/-- `COLUMN_WRITE` (R71, D16). -/
inductive ColumnWrite where
  | overwrite | or
deriving DecidableEq, Repr, Inhabited

/-- `RESET_COLUMN` (R171, D17). -/
inductive ResetColumn where
  | zero | keep
deriving DecidableEq, Repr, Inhabited

/-- A self-test operation (R223): print a byte as a character, or append one raw column. -/
inductive SelfTestOp where
  | char (b : Byte)
  | col (v : Byte)
deriving DecidableEq, Repr, Inhabited

/-- `FontSel(m, a)` as its four values (R127). -/
structure FontSelection where
  m0a0 : Font
  m0a1 : Font
  m1a0 : Font
  m1a1 : Font
deriving DecidableEq, Repr, Inhabited

/-- The session's configuration, R6. The tables of R60 stand below as constants. -/
structure Config where
  /-- `MODEL_FLAG` (D7). -/
  modelFlag : Bool
  /-- `CharsetSel(true, 0)` (R126); `CharsetSel(false, a)` is fixed by R126. -/
  charsetModel0 : Charset
  /-- `CharsetSel(true, 1)` (R126). -/
  charsetModel1 : Charset
  /-- `FontSel` (R127). -/
  fontSel : FontSelection
  /-- `ESC_MAP` (R96). -/
  escMap : EscMap
  /-- `UNMAPPABLE(T, b)`: the pairs for which it holds (R130). A set over 3 tables and 256 bytes is a finite list. -/
  unmappable : List (Charset × Byte)
  gfxZero : GfxZeroPolicy
  firstTest : FirstTest
  padDouble : PadDouble
  afterPad : AfterPadRule
  dupOverflow : DupOverflow
  columnWrite : ColumnWrite
  resetColumn : ResetColumn
  /-- `SELFTEST_MARKER` (R223). -/
  selfTestMarker : List SelfTestOp
  /-- `SELFTEST_BATTERY` (R223). -/
  selfTestBattery : List SelfTestOp
deriving DecidableEq, Repr

/-- The marker's operations at reset: no source gives them (N4, D18). A FREE VALUE (log 9). -/
opaque Config.freeMarker : List SelfTestOp

/-- The battery line's operations at reset: no source gives them (N5, D18). A FREE VALUE (log 9). -/
opaque Config.freeBattery : List SelfTestOp

/-- The entries of the decode tables that no rule fixes (R123, D8). A FREE VALUE (log 6). -/
opaque Config.freeDecode : Charset → Byte → CodePoint

/-- The choices of the partial inverses that no rule fixes (R125, D8). A FREE VALUE (log 7). -/
opaque Config.freeEncode : Charset → CodePoint → Option Byte

/-- The glyph data of `Font_0`, `Font_1` and `Font_2` (R63, D9). A FREE VALUE (log 8). -/
opaque Config.fontTable : Font → Byte → Glyph

/-- What `ZeroCount()` does in GRAPHICS with a zero count under IMMEDIATE, a state no run reaches and for which R204
gives no action. A FREE VALUE among R204's three (log 11). -/
opaque Config.freeZeroCount : ZeroCountAction

/-- The defaults of R6 (D6, D7, D10 to D17), the two self-test lists free (log 9, 18). -/
def Config.default : Config where
  modelFlag := false
  charsetModel0 := .focal
  charsetModel1 := .focal
  fontSel := ⟨.font0, .font1, .font2, .font2⟩
  escMap := EscMap.default
  unmappable := []
  gfxZero := .immediate
  firstTest := .columnZero
  padDouble := .doubled
  afterPad := .ifRoom
  dupOverflow := .discard
  columnWrite := .overwrite
  resetColumn := .zero
  selfTestMarker := Config.freeMarker
  selfTestBattery := Config.freeBattery

end Sys2Proof
end

