-- ==== Sys2Proof/Syntax.lean ====
section
/-! DEFINITION. The instructions, one constructor per row of spec/opcode_table.json, the decode modes that classify a
byte (R21, R90) and the nine escape codes (R140). -/

namespace Sys2Proof

/-- The decode mode (R21). The status encoding 3 is reserved and has no constructor (R33, U3). -/
inductive Mode where
  | text | escapePending | graphics
deriving DecidableEq, Repr, Inhabited

/-- The escape codes of R140. GRAPHICS_MODE carries an 8-bit length, the others nothing. -/
inductive EscapeCode where
  | reset | selfTest
  | startDoubleWide | stopDoubleWide
  | startUnderline | stopUnderline
  | startAltCharset | stopAltCharset
  | graphicsMode (n : Byte)
deriving DecidableEq, Repr

/-- One instruction is what one input byte does (R12, R95). -/
inductive Instr where
  /-- ESC_INTRO, 0x1B in TEXT (R151). -/
  | escIntro
  /-- LF, 0x0A in TEXT (R152). -/
  | lf
  /-- EOL, 0x04 in TEXT (R153). -/
  | eol
  /-- CHAR, any other byte in TEXT (R154). -/
  | char (b : Byte)
  /-- RESET (R171). -/
  | reset
  /-- SELF_TEST (R172). -/
  | selfTest
  /-- START_DOUBLE_WIDE (R174). -/
  | startDoubleWide
  /-- STOP_DOUBLE_WIDE (R175). -/
  | stopDoubleWide
  /-- START_UNDERLINE (R176). -/
  | startUnderline
  /-- STOP_UNDERLINE (R177). -/
  | stopUnderline
  /-- START_ALT_CHARSET (R178). -/
  | startAltCharset
  /-- STOP_ALT_CHARSET (R179). -/
  | stopAltCharset
  /-- GRAPHICS_MODE with its length (R181). -/
  | graphicsMode (n : Byte)
  /-- GFX_COLUMN with its payload byte (R200). -/
  | gfxColumn (p : Byte)
deriving DecidableEq, Repr

end Sys2Proof
end

