-- ==== Sys2Proof/WellFormed.lean ====
section
/-! DEFINITION. Which instruction terms some byte can decode to: the operand checks of R91, R97 and U4. -/

namespace Sys2Proof

/-- CHAR's operand is any byte but the three that TEXT intercepts (R91, R154, R155). -/
def charOperandOk (b : Byte) : Bool :=
  b != escByte && b != lfByte && b != eolByte

/-- GRAPHICS_MODE's operand is 0..247: 0xF8..0xFF are named codes (R97, R144, U4). -/
def lengthOperandOk (n : Byte) : Bool :=
  decide (n.toNat < 0xF8)

/-- A well-formed instruction: one that the decode map of R95 can produce. -/
def Instr.wf : Instr → Bool
  | .escIntro => true
  | .lf => true
  | .eol => true
  | .char b => charOperandOk b
  | .reset => true
  | .selfTest => true
  | .startDoubleWide => true
  | .stopDoubleWide => true
  | .startUnderline => true
  | .stopUnderline => true
  | .startAltCharset => true
  | .stopAltCharset => true
  | .graphicsMode n => lengthOperandOk n
  | .gfxColumn _ => true

end Sys2Proof
end

