-- ==== Sys2Proof/Decode.lean ====
section
/-! DEFINITION. The decode map of R95 (total on every byte in every mode, R100), the walk over a stream, the encoder
written from the same tables, and the host's view of the opcode table's words. -/

namespace Sys2Proof

/-- The named code that an open code is. -/
def OpenCode.toEscape : OpenCode → EscapeCode
  | .selfTest => .selfTest
  | .startUnderline => .startUnderline
  | .stopUnderline => .stopUnderline
  | .startAltCharset => .startAltCharset
  | .stopAltCharset => .stopAltCharset

/-- The reserved set, 0xF8..0xFF (R141). -/
def isReserved (c : Byte) : Bool := decide (0xF8 ≤ c.toNat)

/-- `ESC_MAP^-1` on the reserved bytes (R96): an exact byte match for each entry, the last one 0xF8. -/
def escMapInv (e : EscMap) (c : Byte) : EscapeCode :=
  if c = 0xFF#8 then .reset
  else if c = 0xFE#8 then e.fe.toEscape
  else if c = 0xFD#8 then .startDoubleWide
  else if c = 0xFC#8 then .stopDoubleWide
  else if c = 0xFB#8 then e.fb.toEscape
  else if c = 0xFA#8 then e.fa.toEscape
  else if c = 0xF9#8 then e.f9.toEscape
  else e.f8.toEscape

/-- RESOLVE, R143. Total: a byte outside the reserved set is a graphics header with that length. -/
def resolve (e : EscMap) (c : Byte) : EscapeCode :=
  if isReserved c then escMapInv e c else .graphicsMode c

/-- The eight entries of the escape table in the order of their bytes, 0xF8 first. -/
def escapeTable (e : EscMap) : List EscapeCode :=
  [e.f8.toEscape, e.f9.toEscape, e.fa.toEscape, e.fb.toEscape, .stopDoubleWide, .startDoubleWide,
    e.fe.toEscape, .reset]

/-- The second implementation that R145 names: "a direct array lookup keyed by byte value minus 0xF8". -/
def resolveByIndex (e : EscMap) (c : Byte) : EscapeCode :=
  if 0xF8 ≤ c.toNat then (escapeTable e).getD (c.toNat - 0xF8) (.graphicsMode c) else .graphicsMode c

/-- The instruction that an escape code is, one row of the opcode table each (R170). -/
def EscapeCode.toInstr : EscapeCode → Instr
  | .reset => .reset
  | .selfTest => .selfTest
  | .startDoubleWide => .startDoubleWide
  | .stopDoubleWide => .stopDoubleWide
  | .startUnderline => .startUnderline
  | .stopUnderline => .stopUnderline
  | .startAltCharset => .startAltCharset
  | .stopAltCharset => .stopAltCharset
  | .graphicsMode n => .graphicsMode n

/-- Classification of a byte in TEXT, format T (R91, R102). -/
def decodeText (b : Byte) : Instr :=
  if b = escByte then .escIntro
  else if b = lfByte then .lf
  else if b = eolByte then .eol
  else .char b

/-- `Classify(mode, b)`, R95 and R102: the complete decode map. -/
def decode (e : EscMap) : Mode → Byte → Instr
  | .text, b => decodeText b
  | .escapePending, b => (resolve e b).toInstr
  | .graphics, b => .gfxColumn b

/-- Why no instruction can be read from a stream. No byte is illegal (R100), so only the end of the stream is left. -/
inductive DecodeReject where
  /-- No byte is there: end of stream has no step (R76). -/
  | endOfStream
deriving DecidableEq, Repr

/-- Read one instruction from a stream and give the rest back: every instruction takes exactly one byte (R90). -/
def decodeStream (e : EscMap) (m : Mode) : List Byte → Except DecodeReject (Instr × List Byte)
  | [] => .error .endOfStream
  | b :: rest => .ok (decode e m b, rest)

/-! ### The encoder -/

/-- The mode in which an instruction's byte arrives (R95, first column). -/
def Instr.arrivalMode : Instr → Mode
  | .escIntro => .text
  | .lf => .text
  | .eol => .text
  | .char _ => .text
  | .reset => .escapePending
  | .selfTest => .escapePending
  | .startDoubleWide => .escapePending
  | .stopDoubleWide => .escapePending
  | .startUnderline => .escapePending
  | .stopUnderline => .escapePending
  | .startAltCharset => .escapePending
  | .stopAltCharset => .escapePending
  | .graphicsMode _ => .escapePending
  | .gfxColumn _ => .graphics

/-- `ESC_MAP` on the open codes (R96). -/
def EscMap.byteOf (e : EscMap) (k : OpenCode) : Byte :=
  if e.f8 = k then 0xF8#8
  else if e.f9 = k then 0xF9#8
  else if e.fa = k then 0xFA#8
  else if e.fb = k then 0xFB#8
  else 0xFE#8

/-- The byte that the instruction's own step consumes (R95, second column). -/
def encodeByte (e : EscMap) : Instr → Byte
  | .escIntro => 0x1B#8
  | .lf => 0x0A#8
  | .eol => 0x04#8
  | .char b => b
  | .reset => 0xFF#8
  | .selfTest => e.byteOf .selfTest
  | .startDoubleWide => 0xFD#8
  | .stopDoubleWide => 0xFC#8
  | .startUnderline => e.byteOf .startUnderline
  | .stopUnderline => e.byteOf .stopUnderline
  | .startAltCharset => e.byteOf .startAltCharset
  | .stopAltCharset => e.byteOf .stopAltCharset
  | .graphicsMode n => n
  | .gfxColumn p => p

/-- The instruction's unit as the opcode table writes it: an escape code and a graphics header have the introducer
before them (formats E and G, R92, R93), the others are one byte (formats T and P, R91, R94). -/
def encode (e : EscMap) (i : Instr) : List Byte :=
  match i.arrivalMode with
  | .escapePending => [escByte, encodeByte e i]
  | .text => [encodeByte e i]
  | .graphics => [encodeByte e i]

/-! ### The opcode table's words -/

/-- Read one byte as the opcode table's one-byte rows have it: 0xF8..0xFF are the rows of the named escape codes (mode
ESCAPE_PENDING), every other byte is a TEXT row (log 17). -/
def tableByte (b : Byte) : Mode × Byte :=
  if isReserved b then (.escapePending, b) else (.text, b)

/-- The mode on arrival and the byte of a word of the opcode table (log 17). The table's two-byte rows number the byte that
the row's instruction consumes as bits 7..0 and the introducer as bits 15..8 (its GRAPHICS_MODE row); the same unit with
the introducer in bits 7..0 is read too. -/
def tableUnit (nbits w : Nat) : Option (Mode × Byte) :=
  let lo := BitVec.ofNat 8 w
  let hi := BitVec.ofNat 8 (w / 256)
  if nbits ≤ 8 then some (tableByte lo)
  else if hi = escByte then some (.escapePending, lo)
  else if lo = escByte then some (.escapePending, hi)
  else if isReserved lo then some (.escapePending, lo)
  else none

/-- The instruction that the decoder reads from a word of the opcode table, under the default `ESC_MAP`. -/
def decodeTableWord (nbits w : Nat) : Option Instr :=
  (tableUnit nbits w).map fun u => decode EscMap.default u.1 u.2

end Sys2Proof
end

