-- ==== Sys2Proof/Machine/State.lean ====
section
/-! DEFINITION. The state of one session (R20), its value at construction (R37), the output events (R36, R271) and the
reasons a step can stop. -/

namespace Sys2Proof.Machine

open Sys2Proof

/-- The page buffer `PAGE` (R29, R60): (column, byte) cells, columns strictly rising and below 166, no cell with the value
0x00, which is what an unlisted column holds at construction (R37). -/
abbrev Memory := List Host.Cell

/-- The warnings of R271. -/
inductive WarnCode where
  /-- Code 1 (R272). -/
  | gfxLength
  /-- Code 2 (R273). -/
  | gfxOverflow
  /-- Code 3 (R274). -/
  | unmappable
deriving DecidableEq, Repr

/-- An output event (R12, R36): a flushed line for the paper sink, or a warning. -/
inductive Event where
  /-- `Flush(text, bitmap)`, the snapshot of both buffers (R72, R282). -/
  | flush (text : List CodePoint) (bitmap : Memory)
  /-- `Warn(code, info)` (R271). -/
  | warn (code : WarnCode) (info : Byte)
deriving DecidableEq, Repr

/-- The complete state of one session (R20), with its fixed configuration (R6, log 1) and its two ports (R36, log 3, 5). -/
structure State where
  /-- `st.mode` (R21). -/
  mode : Mode
  /-- `st.rem`, the graphics counter (R22). -/
  rem : Byte
  /-- `st.dw`, double-wide (R23). -/
  dw : Bool
  /-- `st.ul`, underline (R24). -/
  ul : Bool
  /-- `st.alt`, alternate charset (R25). -/
  alt : Bool
  /-- `st.col`, the current column, 0..166 (R26). -/
  col : Fin 167
  /-- `Page` (R29). -/
  page : Memory
  /-- `TextLine` (R30). -/
  text : List CodePoint
  /-- The session's configuration, which no step writes (R34). -/
  cfg : Config
  /-- The model's own: bytes offered by the byte source and not yet taken (R36, R281). -/
  input : List Byte
  /-- The model's own: the index of the next input byte (R31, D2). -/
  pos : Nat
  /-- The model's own: the session's observation so far (R36, R76). -/
  events : List Event
deriving DecidableEq, Repr

/-- Why the machine stops with a fault: never. "The block raises no trap, fault or exception that alters control flow"
(R270), so there is no constructor. -/
inductive Fault where
deriving DecidableEq, Repr

/-- Why a step has no meaning. -/
inductive Refusal where
  /-- An instruction without a meaning in this model, by its mnemonic. No arm of `exec` answers it. -/
  | notModelled (mnemonic : String)
  /-- `step` with no byte offered: end of stream has no step (R76). Safe (log 4). -/
  | noInputByte
  /-- GRAPHICS_MODE with an operand 248..255, which Resolve never produces; 93_implementation_defined.md U4 says to
  refuse it. Raised by `execGraphicsMode`. Safe (log 12). -/
  | lengthNotEncodable
deriving DecidableEq, Repr

/-- The state at construction, R37, under the default configuration; nothing offered, nothing emitted. -/
def State.reset : State where
  mode := .text
  rem := 0#8
  dw := false
  ul := false
  alt := false
  col := 0
  page := []
  text := []
  cfg := Config.default
  input := []
  pos := 0
  events := []

end Sys2Proof.Machine
end

