-- ==== Sys2Proof/Machine/Flags.lean ====
section
/-! DEFINITION. The three formatting flags (R23 to R25, R173) and the status view (R33). -/

namespace Sys2Proof.Machine

open Sys2Proof

/-- Write the double-wide flag and nothing else (R173). -/
def setDw (s : State) (v : Bool) : State := { s with dw := v }

/-- Write the underline flag and nothing else (R173). -/
def setUl (s : State) (v : Bool) : State := { s with ul := v }

/-- Write the alternate-charset flag and nothing else (R173). -/
def setAlt (s : State) (v : Bool) : State := { s with alt := v }

/-- Clear all three flags (R171). -/
def clearFlags (s : State) : State := setAlt (setUl (setDw s false) false) false

/-- Set the mode seen by the next byte (R13). -/
def setMode (s : State) (m : Mode) : State := { s with mode := m }

/-- The mode's two bits of `STATUS` (R33). -/
def modeBits : Mode → BitVec 2
  | .text => 0#2
  | .escapePending => 1#2
  | .graphics => 2#2

/-- The canonical packing `STATUS`, R33: mode [1:0], rem [9:2], dw [10], ul [11], alt [12], col [20:13]. A view only. -/
def status (s : State) : BitVec 21 :=
  BitVec.ofNat 8 s.col.val ++ BitVec.ofBool s.alt ++ BitVec.ofBool s.ul ++ BitVec.ofBool s.dw ++ s.rem ++
    modeBits s.mode

end Sys2Proof.Machine
end

