-- ==== Sys2Proof/Machine/Operands.lean ====
section
/-! DEFINITION. Every operand form: the column byte (R98, R201, R242), the character code through the active tables
(R99, R126 to R130, R241), the graphics length (R97), and the pixel view of a column (R65). -/

namespace Sys2Proof.Machine

open Sys2Proof

/-! ### Columns -/

/-- `ColumnValue(b)`, R201, and the glyph columns of R242: bit 7 is forced on when underline is on. -/
def columnValue (ul : Bool) (b : Byte) : Byte := if ul then b ||| ulBit else b

/-- The value of a padding column, R242: underline-only or blank. -/
def padValue (ul : Bool) : Byte := if ul then ulBit else 0#8

/-- What `MemWrite(PAGE, c, 1, v)` stores over `old`, R71. -/
def storedColumn (w : ColumnWrite) (old v : Byte) : Byte :=
  match w with
  | .overwrite => v
  | .or => old ||| v

/-- Pixel `r` of a column: bit `r`, row 0 at the top (R65). -/
def columnPixel (v : Byte) (r : Nat) : Bool := v.getLsbD r

/-! ### Characters -/

/-- `CharsetSel(m, a)`, R126. -/
def charsetSel (cfg : Config) (m a : Bool) : Charset :=
  match m, a with
  | false, false => .native
  | false, true => .alt
  | true, false => cfg.charsetModel0
  | true, true => cfg.charsetModel1

/-- `FontSel(m, a)`, R127. -/
def fontSel (cfg : Config) (m a : Bool) : Font :=
  match m, a with
  | false, false => cfg.fontSel.m0a0
  | false, true => cfg.fontSel.m0a1
  | true, false => cfg.fontSel.m1a0
  | true, true => cfg.fontSel.m1a1

/-- The active charset, read when the character is processed (R126). -/
def activeCharset (s : State) : Charset := charsetSel s.cfg s.cfg.modelFlag s.alt

/-- The active font (R127). -/
def activeFont (s : State) : Font := fontSel s.cfg s.cfg.modelFlag s.alt

/-- A byte read as the code point of the same number. -/
def byteCodePoint (b : Byte) : CodePoint := ⟨b.toNat, by have := b.isLt; omega⟩

/-- Printable ASCII, 0x20..0x7E (R121). -/
def isPrintable (n : Nat) : Bool := decide (0x20 ≤ n ∧ n ≤ 0x7E)

/-- The C0 range, 0x00..0x1F (R122). -/
def isControl (n : Nat) : Bool := decide (n < 0x20)

/-- DECODE, R128: the identity where R121 and R122 fix the table, a free value elsewhere (R123, log 6). -/
def decodeChar (t : Charset) (b : Byte) : CodePoint :=
  if isPrintable b.toNat then byteCodePoint b
  else if isControl b.toNat && t != .focal then byteCodePoint b
  else Config.freeDecode t b

/-- ENCODE, R129, with `none` for Unmappable: any partial inverse with the properties (a) to (c) of R125 (log 7). -/
def encodeChar (t : Charset) (cp : CodePoint) : Option Byte :=
  if isPrintable cp.val then some (BitVec.ofNat 8 cp.val)
  else match Config.freeEncode t cp with
    | some b => if decodeChar t b = cp then some b else none
    | none => none

/-- `FontRead(F, b)`, R241: keyed by the raw byte. -/
def fontRead (f : Font) (b : Byte) : Glyph := Config.fontTable f b

/-- The UNMAPPABLE check, R130. -/
def unmappable (cfg : Config) (t : Charset) (b : Byte) : Bool := cfg.unmappable.contains (t, b)

/-! ### Graphics length -/

/-- The lengths that raise a warning: 0 and 167..247 (R180). -/
def lengthInvalid (n : Byte) : Bool := decide (n.toNat = 0 ∨ n.toNat > pageWidth)

end Sys2Proof.Machine
end

