-- ==== Sys2Proof/Machine/Ops.lean ====
section
/-! DEFINITION. The named operations: the page as a canonical list of cells (R29, R60), PutCol (R70), MemWrite (R71),
Flush (R72), warning events (R271), DoReset (R171), and taking one byte from the port (R36). The block has no exception to
take and none to return from (R270, R278): `raiseWarn` is its one shared operation for an anomaly. -/

namespace Sys2Proof.Machine

open Sys2Proof

/-! ### The page -/

/-- What a column that no cell lists reads as: 0x00, the construction value (R37). -/
def blankColumn : Byte := 0#8

/-- `MemRead(PAGE, c, 1)`. -/
def Memory.read : Memory → Nat → Byte
  | [], _ => blankColumn
  | (a, b) :: rest, c => if a = c then b else Memory.read rest c

/-- The cell for column `c` put before `rest`, or no cell where the value is what an unlisted column reads as. -/
def Memory.cell (c : Nat) (v : Byte) (rest : Memory) : Memory :=
  if v = blankColumn then rest else (c, v) :: rest

/-- Set column `c`, keeping the cells in rising order and listing no blank one. -/
def Memory.write : Memory → Nat → Byte → Memory
  | [], c, v => Memory.cell c v []
  | (a, b) :: rest, c, v =>
    if c < a then Memory.cell c v ((a, b) :: rest)
    else if c = a then Memory.cell c v rest
    else (a, b) :: Memory.write rest c v

/-- Every cell of a tail lies at or after column `lo`, inside the page, in rising order, and is not blank. -/
def Memory.wfFrom : Nat → Memory → Bool
  | _, [] => true
  | lo, (a, b) :: rest => decide (lo ≤ a ∧ a < pageWidth) && b != blankColumn && Memory.wfFrom (a + 1) rest

/-- The canonical form: strictly rising columns below 166, none of them blank. -/
def Memory.wf (m : Memory) : Bool := Memory.wfFrom 0 m

/-- `Page[c][r]` (R29, R65). -/
def Memory.pixel (m : Memory) (c r : Nat) : Bool := columnPixel (m.read c) r

/-! ### Events -/

/-- `Emit(e)`, R11. -/
def emit (s : State) (e : Event) : State := { s with events := s.events ++ [e] }

/-- `raise Warn_X(info)`, R11 and R271: append the warning, change nothing else, go on. -/
def raiseWarn (s : State) (code : WarnCode) (info : Byte) : State := emit s (.warn code info)

/-- The numeric code of a warning (R271). -/
def WarnCode.number : WarnCode → Nat
  | .gfxLength => 1
  | .gfxOverflow => 2
  | .unmappable => 3

/-! ### Columns and lines -/

/-- `MemWrite(PAGE, c, 1, v)` under the column write policy (R71). -/
def memWrite (s : State) (c : Nat) (v : Byte) : State :=
  { s with page := s.page.write c (storedColumn s.cfg.columnWrite (s.page.read c) v) }

/-- `PutCol(v)`, R70: write one column and advance; discard it when the line is full. -/
def putCol (s : State) (v : Byte) : State :=
  if h : s.col.val < pageWidth then
    { memWrite s s.col.val v with col := ⟨s.col.val + 1, Nat.succ_lt_succ h⟩ }
  else s

/-- `Flush()`, R72: emit a snapshot of the line, then clear both buffers and the column. -/
def flush (s : State) : State :=
  { emit s (.flush s.text s.page) with text := [], page := [], col := 0 }

/-! ### Reset -/

/-- The column after RESET, by `RESET_COLUMN` (R171, D17). -/
def resetCol (s : State) : Fin 167 :=
  match s.cfg.resetColumn with
  | .zero => 0
  | .keep => s.col

/-- `DoReset()`, R171. The page is NOT cleared: the documented quirk. -/
def doReset (s : State) : State :=
  setMode { clearFlags s with rem := 0#8, text := [], col := resetCol s } .text

/-! ### The byte port -/

/-- The state after one byte has been taken from the port: `rest` is still offered, the position moves on (R31, R36). -/
def takeByte (s : State) (rest : List Byte) : State := { s with input := rest, pos := s.pos + 1 }

/-- Read the next byte as an instruction of the current mode (R95, R150) and take it from the port. -/
def fetch (s : State) : Except DecodeReject (Instr × State) :=
  match decodeStream s.cfg.escMap s.mode s.input with
  | .error r => .error r
  | .ok (i, rest) => .ok (i, takeByte s rest)

/-- Offer byte `b` as the next one and put the block into the mode in which it is to arrive. -/
def offerByte (s : State) (m : Mode) (b : Byte) : State := { s with mode := m, input := b :: s.input }

end Sys2Proof.Machine
end

