-- ==== Sys2Proof/Machine/Assembler.lean ====
section
/-! DEFINITION. The bitmap/line assembler of 46_line_assembler.md: AppendCol, PlaceGlyph and PrintChar. -/

namespace Sys2Proof.Machine

open Sys2Proof

/-- `AppendCol(v)`, R240: one column, twice in double width. -/
def appendCol (s : State) (v : Byte) : State :=
  let s1 := putCol s v
  if s1.dw then putCol s1 v else s1

/-- `k`, the width of one glyph column (R243). -/
def glyphWidth (s : State) : Nat := if s.dw then 2 else 1

/-- `kp`, the width of one padding column (R243, D13). -/
def padWidth (s : State) : Nat :=
  match s.cfg.padDouble with
  | .doubled => glyphWidth s
  | .single => 1

/-- `IsFirst()`, R249. -/
def isFirst (s : State) : Bool :=
  match s.cfg.firstTest with
  | .columnZero => s.col.val == 0
  | .textEmpty => s.text.isEmpty

/-- The columns before the glyph: none for the first character of a line (R243). -/
def leadWidth (s : State) : Nat := if isFirst s then 0 else padWidth s

/-- `need`, R245: the padding before and the five glyph columns; the padding after is not counted. -/
def neededColumns (s : State) : Nat := leadWidth s + 5 * glyphWidth s

/-- The fit test of R243: the character does not fit on the line. -/
def wraps (s : State) : Bool := decide (s.col.val + neededColumns s > pageWidth)

/-- `PadCol(pad, kp)`, R243. -/
def padCol (s : State) (pad : Byte) (kp : Nat) : State :=
  let s1 := putCol s pad
  if kp = 2 then putCol s1 pad else s1

/-- Whether `AfterPad` writes its padding (R244, D14). -/
def afterPadDue (s : State) (kp : Nat) : Bool :=
  match s.cfg.afterPad with
  | .ifRoom => decide (s.col.val < pageWidth)
  | .ifNotLast => decide (s.col.val + kp ≤ 165)

/-- `AfterPad(pad, kp)`, R244. -/
def afterPad (s : State) (pad : Byte) (kp : Nat) : State :=
  if afterPadDue s kp then padCol s pad kp else s

/-- The five glyph columns, with the underline bit (R242), each through AppendCol. -/
def appendGlyph (s : State) (ul : Bool) (g : Glyph) : State :=
  g.columns.foldl (fun t v => appendCol t (columnValue ul v)) s

/-- `PlaceGlyph(g)`, R243: padding and line wrap around five glyph columns. -/
def placeGlyph (s : State) (g : Glyph) : State :=
  let kp := padWidth s
  let pad := padValue s.ul
  let s1 := if wraps s then flush s else s
  let first := wraps s || isFirst s
  let s2 := if first then s1 else padCol s1 pad kp
  afterPad (appendGlyph s2 s.ul g) pad kp

/-- `TextLine.append(cp)` (R9). -/
def appendText (s : State) (cp : CodePoint) : State := { s with text := s.text ++ [cp] }

/-- `PrintChar(b)`, R246: an unmappable byte is dropped with a warning; any other is drawn, then its code point joins the
line it is drawn on. -/
def printChar (s : State) (b : Byte) : State :=
  if unmappable s.cfg (activeCharset s) b then raiseWarn s .unmappable b
  else appendText (placeGlyph s (fontRead (activeFont s) b)) (decodeChar (activeCharset s) b)

end Sys2Proof.Machine
end

