-- ==== Sys2Proof/Machine/SelfTest.lean ====
section
/-! DEFINITION. The self-test sequence of 45_self_test.md. -/

namespace Sys2Proof.Machine

open Sys2Proof

/-- One self-test operation, R223. -/
def runOp (s : State) : SelfTestOp → State
  | .char b => printChar s b
  | .col v => appendCol s v

/-- `RunOps`, R223: the operations in order. -/
def runOps (s : State) (ops : List SelfTestOp) : State := ops.foldl runOp s

/-- The byte printed for index `i`: position 32 + i, position 32 forced to an underscore (R220, R221). -/
def selfTestByte (i : Nat) : Byte := if 32 + i = 32 then 0x5F#8 else BitVec.ofNat 8 (32 + i)

/-- One turn of the loop of R220: print, and flush after each 24th character. -/
def selfTestChar (s : State) (i : Nat) : State :=
  let s1 := printChar s (selfTestByte i)
  if (i + 1) % 24 = 0 then flush s1 else s1

/-- Step (2) of R220: positions 32..254. -/
def selfTestChars (s : State) : State := (List.range 223).foldl selfTestChar s

/-- `SelfTestSequence()`, R220, steps (1) to (8). -/
def selfTestSequence (s : State) : State :=
  let s1 := flush s
  let s2 := selfTestChars s1
  let s3 := runOps s2 s2.cfg.selfTestMarker
  let s4 := flush s3
  let s5 := flush s4
  let s6 := runOps s5 s5.cfg.selfTestBattery
  let s7 := flush s6
  flush s7

/-- `DoSelfTest()`, R172. -/
def doSelfTest (s : State) : State := setMode (selfTestSequence (doReset s)) .text

end Sys2Proof.Machine
end

