-- ==== Sys2Proof/Machine/Escape.lean ====
section
/-! DEFINITION. The escape codes, 43_escape_pending.md: what each resolved code does, and the mode it leaves (R170). -/

namespace Sys2Proof.Machine

open Sys2Proof

/-- RESET, R171. -/
def execReset (s : State) : Host.Outcome State Fault Refusal := .next (doReset s)

/-- SELF_TEST, R172. -/
def execSelfTest (s : State) : Host.Outcome State Fault Refusal := .next (doSelfTest s)

/-- START_DOUBLE_WIDE, R174. -/
def execStartDoubleWide (s : State) : Host.Outcome State Fault Refusal := .next (setMode (setDw s true) .text)

/-- STOP_DOUBLE_WIDE, R175. -/
def execStopDoubleWide (s : State) : Host.Outcome State Fault Refusal := .next (setMode (setDw s false) .text)

/-- START_UNDERLINE, R176. -/
def execStartUnderline (s : State) : Host.Outcome State Fault Refusal := .next (setMode (setUl s true) .text)

/-- STOP_UNDERLINE, R177. -/
def execStopUnderline (s : State) : Host.Outcome State Fault Refusal := .next (setMode (setUl s false) .text)

/-- START_ALT_CHARSET, R178. -/
def execStartAltCharset (s : State) : Host.Outcome State Fault Refusal := .next (setMode (setAlt s true) .text)

/-- STOP_ALT_CHARSET, R179. -/
def execStopAltCharset (s : State) : Host.Outcome State Fault Refusal := .next (setMode (setAlt s false) .text)

/-- The mode after a zero-length header, R182. -/
def zeroLengthMode (p : GfxZeroPolicy) : Mode :=
  match p with
  | .immediate => .text
  | .oneByte => .graphics
  | .wrap256 => .graphics
  | .never => .graphics

/-- The length check of R180: a warning, and the length is honoured all the same. -/
def checkLength (s : State) (n : Byte) : State :=
  if lengthInvalid n then raiseWarn s .gfxLength n else s

/-- `GraphicsHeader(n)`, R181. -/
def graphicsHeader (s : State) (n : Byte) : State :=
  let s1 := { checkLength s n with rem := n }
  if n = 0#8 then setMode s1 (zeroLengthMode s1.cfg.gfxZero) else setMode s1 .graphics

/-- GRAPHICS_MODE, R181. An operand that Resolve cannot produce is refused (U4, log 12). -/
def execGraphicsMode (n : Byte) (s : State) : Host.Outcome State Fault Refusal :=
  if lengthOperandOk n then .next (graphicsHeader s n) else .refused .lengthNotEncodable

end Sys2Proof.Machine
end

