-- ==== Sys2Proof/Machine/Graphics.lean ====
section
/-! DEFINITION. The one GRAPHICS-mode instruction, 44_graphics_mode.md. -/

namespace Sys2Proof.Machine

open Sys2Proof

/-- The line is full (R202). -/
def lineFull (s : State) : Bool := decide (s.col.val ≥ pageWidth)

/-- The forced flush of R202 with the warning that explains it before it (R273). -/
def forcedFlush (s : State) : State := flush (raiseWarn s .gfxOverflow s.rem)

/-- The check before the second copy of a doubled column, R203. -/
def duplicateRoom (s : State) : State :=
  if lineFull s && s.cfg.dupOverflow == .flushThenWrite then forcedFlush s else s

/-- One payload byte drawn: the first half of `GraphicsByte`, R200 to R203. -/
def drawPayload (s : State) (b : Byte) : State :=
  let s0 := if lineFull s then forcedFlush s else s
  let v := columnValue s0.ul b
  let s1 := putCol s0 v
  if s1.dw then putCol (duplicateRoom s1) v else s1

/-- The action of `ZeroCount()` under a policy, R204. Under IMMEDIATE the rule gives none and no run comes here: a free
value (log 11). -/
def zeroCountAction : GfxZeroPolicy → ZeroCountAction
  | .immediate => Config.freeZeroCount
  | .oneByte => .toText
  | .wrap256 => .wrap
  | .never => .stay

/-- `ZeroCount()`, R204. -/
def zeroCount (s : State) : State :=
  match zeroCountAction s.cfg.gfxZero with
  | .toText => setMode s .text
  | .wrap => { s with rem := 255#8 }
  | .stay => s

/-- The count of R200: down by one, back to TEXT at zero; with a zero count already, `ZeroCount()`. -/
def countDown (s : State) : State :=
  if s.rem.toNat ≥ 1 then
    let s1 := { s with rem := s.rem - 1#8 }
    if s1.rem = 0#8 then setMode s1 .text else s1
  else zeroCount s

/-- GFX_COLUMN, R200. -/
def execGfxColumn (p : Byte) (s : State) : Host.Outcome State Fault Refusal := .next (countDown (drawPayload s p))

end Sys2Proof.Machine
end

