-- ==== Sys2Proof/Machine/Text.lean ====
section
/-! DEFINITION. The four TEXT-mode instructions, 42_text_mode.md. Each meaning is what the byte does in the mode in which
R95 gives the instruction (log 16). -/

namespace Sys2Proof.Machine

open Sys2Proof

/-- ESC_INTRO, R151. -/
def execEscIntro (s : State) : Host.Outcome State Fault Refusal := .next (setMode s .escapePending)

/-- LF, R152: flush; the mode stays. -/
def execLf (s : State) : Host.Outcome State Fault Refusal := .next (flush s)

/-- EOL, R153: "identical to LF in every respect". -/
def execEol (s : State) : Host.Outcome State Fault Refusal := .next (flush s)

/-- CHAR, R154: PrintChar; the mode stays. -/
def execChar (b : Byte) (s : State) : Host.Outcome State Fault Refusal := .next (printChar s b)

end Sys2Proof.Machine
end

