-- ==== Sys2Proof/Machine/Dispatch.lean ====
section
/-! DEFINITION. The dispatch: one arm per constructor of Instr, one meaning each. -/

namespace Sys2Proof.Machine

open Sys2Proof

def exec (i : Instr) (s : State) : Host.Outcome State Fault Refusal :=
  match i with
  | .escIntro => Sys2Proof.Machine.execEscIntro s
  | .lf => Sys2Proof.Machine.execLf s
  | .eol => Sys2Proof.Machine.execEol s
  | .char b => Sys2Proof.Machine.execChar b s
  | .reset => Sys2Proof.Machine.execReset s
  | .selfTest => Sys2Proof.Machine.execSelfTest s
  | .startDoubleWide => Sys2Proof.Machine.execStartDoubleWide s
  | .stopDoubleWide => Sys2Proof.Machine.execStopDoubleWide s
  | .startUnderline => Sys2Proof.Machine.execStartUnderline s
  | .stopUnderline => Sys2Proof.Machine.execStopUnderline s
  | .startAltCharset => Sys2Proof.Machine.execStartAltCharset s
  | .stopAltCharset => Sys2Proof.Machine.execStopAltCharset s
  | .graphicsMode n => Sys2Proof.Machine.execGraphicsMode n s
  | .gfxColumn p => Sys2Proof.Machine.execGfxColumn p s

end Sys2Proof.Machine
end

