-- ==== Sys2Proof/Machine/Step.lean ====
section
/-! DEFINITION. One step: one input byte (R12, R150). -/

namespace Sys2Proof.Machine

open Sys2Proof

/-- `step`, R12 and R150: take the next byte, classify it by the mode as it was when the byte arrived, run its
instruction. With no byte offered there is no step (R76, log 4). -/
def step (s : State) : Host.Outcome State Fault Refusal :=
  match fetch s with
  | .error .endOfStream => .refused .noInputByte
  | .ok (i, s1) => exec i s1

/-- The byte source offers the byte of an opcode-table word, with the block in the mode in which that row's byte arrives
(log 3, 17). A word that is no row's unit changes nothing. -/
def State.withFetchWord (s : State) (nbits w : Nat) : State :=
  match tableUnit nbits w with
  | some (m, b) => offerByte s m b
  | none => s

end Sys2Proof.Machine
end

