-- ==== Sys2Proof/Machine/Describe.lean ====
section
/-! DEFINITION. The byte-level meaning of the file-description collaborator and its name lookup, which R5 keeps in scope:
the notation of R103 to R106. No step calls anything here (log 21). -/

namespace Sys2Proof.Machine

open Sys2Proof

/-- The escape names of R105, in lower case. GRAPHICS_MODE has no name: it is written with the GFX form. -/
def escapeNames : List (List Char × EscapeCode) :=
  [("reset".toList, .reset), ("self_test".toList, .selfTest),
   ("start_double_wide".toList, .startDoubleWide), ("stop_double_wide".toList, .stopDoubleWide),
   ("start_underline".toList, .startUnderline), ("stop_underline".toList, .stopUnderline),
   ("start_alt_charset".toList, .startAltCharset), ("stop_alt_charset".toList, .stopAltCharset)]

/-- The case-insensitive name lookup of R106. -/
def lookupEscape (name : List Char) : Option EscapeCode :=
  (escapeNames.find? fun e => e.1 == name.map Char.toLower).map Prod.snd

/-- One element of the notation of R103. -/
inductive DescItem where
  /-- `TXT "s"`. -/
  | txt (s : List Char)
  /-- `LF`. -/
  | lf
  /-- `EOL`. -/
  | eol
  /-- `ESC <NAME>`. -/
  | esc (name : List Char)
  /-- `GFX n: p1 .. pn`. -/
  | gfx (n : Byte) (payload : List Byte)
  /-- `HEX xx xx ..`. -/
  | hex (bytes : List Byte)
deriving DecidableEq, Repr

/-- The byte of one character of a text run: printable ASCII only (R103, R104). -/
def txtByte (c : Char) : Option Byte :=
  if 0x20 ≤ c.toNat ∧ c.toNat ≤ 0x7E then some (BitVec.ofNat 8 c.toNat) else none

/-- The bytes of one element, or none where R103 and R104 do not admit it. -/
def DescItem.bytes (e : EscMap) : DescItem → Option (List Byte)
  | .txt s => s.mapM txtByte
  | .lf => some [lfByte]
  | .eol => some [eolByte]
  | .esc name => (lookupEscape name).map fun c => encode e c.toInstr
  | .gfx n payload => if n.toNat < 0xF8 ∧ payload.length = n.toNat then some (escByte :: n :: payload) else none
  | .hex bytes => some bytes

/-- The byte stream of a description (R284): the bytes of its elements in order. -/
def describe (e : EscMap) (items : List DescItem) : Option (List Byte) :=
  (items.mapM (DescItem.bytes e)).map List.flatten

end Sys2Proof.Machine
end

