-- ==== Sys2Proof/Safety.lean ====
section
/-! DEFINITION. What counts as a legal state, in the terms the claims use: the properties of R22, R29, R30, R36 and R39 that
every step is to keep. -/

namespace Sys2Proof.Machine

open Sys2Proof

/-- The construction values of R37 in the eight fields of R20. -/
def AtConstruction (s : State) : Prop :=
  s.mode = .text ∧ s.rem = 0#8 ∧ s.dw = false ∧ s.ul = false ∧ s.alt = false ∧ s.col.val = 0 ∧
    (∀ c, s.page.read c = 0#8) ∧ s.text = []

/-- The page buffer has its canonical form. -/
abbrev PageCanonical (s : State) : Prop := s.page.wf = true

/-- R22 and R39 item 2: outside GRAPHICS the graphics counter is 0. -/
def CountIdle (s : State) : Prop := s.mode ≠ .graphics → s.rem = 0#8

/-- The counts that GRAPHICS can hold under each zero-length policy (R22, R182, R204, R303). -/
def CountLegal (s : State) : Prop :=
  s.mode = .graphics →
    match s.cfg.gfxZero with
    | .immediate => 1 ≤ s.rem.toNat ∧ s.rem.toNat ≤ 247
    | .oneByte => s.rem.toNat ≤ 247
    | .wrap256 => True
    | .never => s.rem.toNat ≤ 247

/-- The room that a line's characters have taken (R248): five data columns each and two padding columns between two of
them; the padding after the last one may be missing only where no further character fits. -/
def TextFits (s : State) : Prop :=
  s.text = [] ∨ 7 * s.text.length ≤ s.col.val + 1 ∨ (164 ≤ s.col.val ∧ 7 * s.text.length ≤ s.col.val + 2)

/-- Every line emitted so far holds at most 24 code points and a canonical bitmap (R36). -/
def EventsLegal (s : State) : Prop :=
  ∀ text bitmap, Event.flush text bitmap ∈ s.events → text.length ≤ 24 ∧ bitmap.wf = true

/-- The legal states: what construction establishes and every step keeps. -/
structure Legal (s : State) : Prop where
  page : PageCanonical s
  idle : CountIdle s
  count : CountLegal s
  fits : TextFits s
  events : EventsLegal s

/-- R39 item 4: no pixel stands at or past the current column. -/
def BlankAhead (s : State) : Prop := ∀ c, s.col.val ≤ c → s.page.read c = 0#8

end Sys2Proof.Machine
end

