-- ==== Sys2Proof/Certificates/Slice0/Obligations.lean ====
section
/-! DEFINITION. The statements for the provers. Each docstring names the rule of spec/ that it formalises. -/

open Sys2Proof Sys2Proof.Machine

/-! ### Encoding -/

/-- Tier 1. A few words written out from R91 to R95 decode to the instructions they stand for. The word 0xFE rests on the
default ESC_MAP, the spec's general knowledge (log 2). -/
def Obligations.SampleWordsDecode : Prop :=
  decode EscMap.default .text 0b00011011#8 = .escIntro ∧
  decode EscMap.default .text 0b00001010#8 = .lf ∧
  decode EscMap.default .text 0b00000100#8 = .eol ∧
  decode EscMap.default .text 0b01000001#8 = .char 0x41#8 ∧
  decode EscMap.default .escapePending 0b11111111#8 = .reset ∧
  decode EscMap.default .escapePending 0b11111110#8 = .selfTest ∧
  decode EscMap.default .escapePending 0b10000011#8 = .graphicsMode 131#8 ∧
  decode EscMap.default .graphics 0b00011011#8 = .gfxColumn 0x1B#8 ∧
  decodeTableWord 16 0x1B83 = some (.graphicsMode 131#8)

/-- R91 and R102: the whole classification of a byte, for every binding of the escape bytes. -/
def Obligations.ClassificationOfEveryByte : Prop :=
  ∀ (e : EscMap) (b : Byte),
    decode e .text b =
      (if b = 0x1B#8 then .escIntro else if b = 0x0A#8 then .lf else if b = 0x04#8 then .eol else .char b) ∧
    (b.toNat < 0xF8 → decode e .escapePending b = .graphicsMode b) ∧
    decode e .escapePending 0xFF#8 = .reset ∧
    decode e .escapePending 0xFD#8 = .startDoubleWide ∧
    decode e .escapePending 0xFC#8 = .stopDoubleWide ∧
    (∀ k : OpenCode, 0xF8 ≤ (e.byteOf k).toNat ∧ resolve e (e.byteOf k) = k.toEscape ∧
      decode e .escapePending (e.byteOf k) = k.toEscape.toInstr) ∧
    decode e .escapePending b = (resolve e b).toInstr ∧
    decode e .graphics b = .gfxColumn b

/-- R145: the two implementations of RESOLVE agree, for every bijection and every byte. -/
def Obligations.ScanAndIndexResolveAlike : Prop :=
  ∀ (e : EscMap) (c : Byte), resolve e c = resolveByIndex e c

/-- R95: decoding the byte of an encoded well-formed instruction, in the mode in which that byte arrives, gives the
instruction back, for every bijection ESC_MAP. -/
def Obligations.DecodeOfEncode : Prop :=
  ∀ (e : EscMap) (i : Instr), i.wf = true → decode e i.arrivalMode (encodeByte e i) = i

/-- R95 and R100: the other direction. Every byte in every mode is a well-formed instruction that arrives in that mode and
is encoded by that byte: no bit is dropped and no byte is illegal. -/
def Obligations.EncodeOfDecode : Prop :=
  ∀ (e : EscMap) (m : Mode) (b : Byte),
    (decode e m b).wf = true ∧ (decode e m b).arrivalMode = m ∧ encodeByte e (decode e m b) = b

/-- R92, R93, R101: an encoded escape unit, fed from TEXT, runs in two steps: the introducer arms the escape and the second
byte runs the instruction. -/
def Obligations.EscapeUnitRunsInTwoSteps : Prop :=
  ∀ (s : State) (i : Instr) (rest : List Byte), i.wf = true → i.arrivalMode = .escapePending → s.mode = .text →
    s.input = encode s.cfg.escMap i ++ rest →
    ∃ u, step s = .next u ∧ u.mode = .escapePending ∧
      step u = exec i { s with mode := .escapePending, input := rest, pos := s.pos + 2 }

/-- R103, R105, R106: the bytes of `ESC <NAME>` are the introducer and the byte that resolves to the named code; a `GFX`
element has bytes exactly where its length is below 0xF8 and counts its payload, and they are the introducer, its header and
its payload. What names there are is NameLookupIgnoresCase's. -/
def Obligations.DescribedEscapesResolve : Prop :=
  ∀ (e : EscMap),
    (∀ name c, lookupEscape name = some c →
      ∃ b, (DescItem.esc name).bytes e = some [0x1B#8, b] ∧ resolve e b = c) ∧
    (∀ n payload bytes, (DescItem.gfx n payload).bytes e = some bytes ↔
      n.toNat < 0xF8 ∧ payload.length = n.toNat ∧ bytes = 0x1B#8 :: n :: payload) ∧
    (∀ n : Byte, n.toNat < 0xF8 → resolve e n = .graphicsMode n)

/-- R103, R104, R284: the other elements of the notation. A text run has bytes exactly where every character is printable
ASCII, one byte of the same number each; the bytes of a description are those of its elements in order. -/
def Obligations.DescribedElementsHaveTheirBytes : Prop :=
  ∀ (e : EscMap),
    (DescItem.lf).bytes e = some [0x0A#8] ∧ (DescItem.eol).bytes e = some [0x04#8] ∧
    (∀ bytes, (DescItem.hex bytes).bytes e = some bytes) ∧
    (∀ s bytes, (DescItem.txt s).bytes e = some bytes ↔
      (∀ c ∈ s, 0x20 ≤ c.toNat ∧ c.toNat ≤ 0x7E) ∧ bytes = s.map fun c => BitVec.ofNat 8 c.toNat) ∧
    describe e [] = some [] ∧
    ∀ item items bytes, describe e (item :: items) = some bytes ↔
      ∃ first rest, item.bytes e = some first ∧ describe e items = some rest ∧ bytes = first ++ rest

/-- R105, R106: each of the eight names, in any case, is found and gives its own code, and no other name is found; so the
lookup does not depend on case. -/
def Obligations.NameLookupIgnoresCase : Prop :=
  (∀ (name : List Char) (c : EscapeCode), lookupEscape name = some c ↔
    ∃ p ∈ [("RESET", EscapeCode.reset), ("SELF_TEST", .selfTest), ("START_DOUBLE_WIDE", .startDoubleWide),
        ("STOP_DOUBLE_WIDE", .stopDoubleWide), ("START_UNDERLINE", .startUnderline), ("STOP_UNDERLINE", .stopUnderline),
        ("START_ALT_CHARSET", .startAltCharset), ("STOP_ALT_CHARSET", .stopAltCharset)],
      name.map Char.toLower = p.1.toList.map Char.toLower ∧ c = p.2) ∧
  ∀ a b : List Char, a.map Char.toLower = b.map Char.toLower → lookupEscape a = lookupEscape b

/-! ### Tables and columns -/

/-- R121, R122: what the decode tables are bound to. -/
def Obligations.DecodeTablesFixedRanges : Prop :=
  (∀ (t : Charset) (b : Byte), 0x20 ≤ b.toNat → b.toNat ≤ 0x7E → (decodeChar t b).val = b.toNat) ∧
  (∀ b : Byte, b.toNat ≤ 0x1F →
    (decodeChar .native b).val = b.toNat ∧ (decodeChar .alt b).val = b.toNat)

/-- R125 (a) and (b): the partial inverses. -/
def Obligations.EncodeIsPartialInverse : Prop :=
  ∀ (t : Charset),
    (∀ (cp : CodePoint) (b : Byte), encodeChar t cp = some b → decodeChar t b = cp) ∧
    (∀ cp : CodePoint, 0x20 ≤ cp.val → cp.val ≤ 0x7E → encodeChar t cp = some (BitVec.ofNat 8 cp.val))

/-- R201: the underline bit is forced on, bits 0..6 pass through, a byte with bit 7 set is unchanged. -/
def Obligations.UnderlineForcesBitSeven : Prop :=
  ∀ b : Byte, columnValue false b = b ∧
    (∀ i, (columnValue true b).getLsbD i = if i = 7 then true else b.getLsbD i) ∧
    (b.getLsbD 7 = true → columnValue true b = b)

/-- R71, R126, R127, R130, R242, R243, R249: what the names say in which the statements below speak of a line. Where a
rule leaves a selection open, it is the configuration's field. -/
def Obligations.LineRulesWrittenOut : Prop :=
  (∀ old v, storedColumn .overwrite old v = v ∧ storedColumn .or old v = old ||| v) ∧
  (padValue false = 0x00#8 ∧ padValue true = 0x80#8) ∧
  ∀ s : State,
    activeCharset s =
      (if s.cfg.modelFlag then (if s.alt then s.cfg.charsetModel1 else s.cfg.charsetModel0)
        else if s.alt then .alt else .native) ∧
    activeFont s =
      (if s.cfg.modelFlag then (if s.alt then s.cfg.fontSel.m1a1 else s.cfg.fontSel.m1a0)
        else if s.alt then s.cfg.fontSel.m0a1 else s.cfg.fontSel.m0a0) ∧
    glyphWidth s = (if s.dw then 2 else 1) ∧
    padWidth s = (if s.dw = true ∧ s.cfg.padDouble = .doubled then 2 else 1) ∧
    (s.cfg.firstTest = .columnZero → (isFirst s = true ↔ s.col.val = 0)) ∧
    (s.cfg.firstTest = .textEmpty → (isFirst s = true ↔ s.text = [])) ∧
    ∀ (t : Charset) (b : Byte), unmappable s.cfg t b = true ↔ (t, b) ∈ s.cfg.unmappable

/-- R33 (D3, a view of the spec's own): the fields stand in STATUS at their bits. -/
def Obligations.StatusHoldsTheFields : Prop :=
  ∀ s : State,
    (status s).extractLsb' 0 2 =
      (match s.mode with
        | .text => 0#2
        | .escapePending => 1#2
        | .graphics => 2#2) ∧
    (status s).extractLsb' 2 8 = s.rem ∧
    (status s).getLsbD 10 = s.dw ∧ (status s).getLsbD 11 = s.ul ∧ (status s).getLsbD 12 = s.alt ∧
    ((status s).extractLsb' 13 8).toNat = s.col.val

/-! ### Construction and the step -/

/-- R37: the state at construction. -/
def Obligations.ConstructionValues : Prop := AtConstruction State.reset ∧ State.reset.page = []

/-- R12, R150: a step takes one byte and runs the instruction that this byte is in the mode as it was when the byte
arrived. -/
def Obligations.StepRunsDecodedInstruction : Prop :=
  ∀ (s : State) (b : Byte) (rest : List Byte), s.input = b :: rest →
    (decode s.cfg.escMap s.mode b).wf = true ∧
    step s = exec (decode s.cfg.escMap s.mode b) { s with input := rest, pos := s.pos + 1 }

/-- R76: end of stream has no step. The refusal is the model's form of it (log 4). -/
def Obligations.NoStepWithoutByte : Prop :=
  ∀ s : State, s.input = [] → step s = .refused .noInputByte

/-- R34, R73, R76, R90: a step that answers takes exactly one byte, leaves the configuration alone and only adds events to
the observation. -/
def Obligations.StepTakesOneByteAndAddsEvents : Prop :=
  ∀ s t : State, step s = .next t →
    (∃ b, s.input = b :: t.input) ∧ t.pos = s.pos + 1 ∧ t.cfg = s.cfg ∧ ∃ evs, t.events = s.events ++ evs

/-! ### TEXT -/

/-- R151: ESC_INTRO arms the escape and changes nothing else; a second 0x1B right after is the resolving byte of a header of
length 27. -/
def Obligations.EscIntroArmsEscape : Prop :=
  (∀ e : EscMap, decode e .text 0x1B#8 = .escIntro ∧ decode e .escapePending 0x1B#8 = .graphicsMode 27#8) ∧
  ∀ s : State, exec .escIntro s = .next { s with mode := .escapePending }

/-- R72, R152, R153: a terminator emits one Flush event with a snapshot of both buffers, clears them and the column, and
leaves the mode, the count and the flags as they are. -/
def Obligations.TerminatorsFlush : Prop :=
  (∀ e : EscMap, decode e .text 0x0A#8 = .lf ∧ decode e .text 0x04#8 = .eol) ∧
  (∀ c, Memory.read [] c = 0#8) ∧
  ∀ s : State,
    exec .lf s = .next { s with text := [], page := [], col := 0, events := s.events ++ [.flush s.text s.page] } ∧
    exec .eol s = exec .lf s

/-- R130, R274: an unmappable character is dropped whole, with one warning. UNMAPPABLE is a parameter (D10, log 10). -/
def Obligations.UnmappableCharIsDropped : Prop :=
  ∀ (s : State) (b : Byte), unmappable s.cfg (activeCharset s) b = true →
    exec (.char b) s = .next { s with events := s.events ++ [.warn .unmappable b] }

/-- R240 to R246, R249: a character that fits. It writes the padding before it (where it is not the first of its line), its
five glyph columns, doubled in double width, and the padding after it, each with the underline bit where underline is on;
no other column changes; its code point joins the line. -/
def Obligations.CharPlacedOnItsLine : Prop :=
  ∀ (s : State) (b : Byte), PageCanonical s → unmappable s.cfg (activeCharset s) b = false →
    s.col.val + (if isFirst s then 0 else padWidth s) + 5 * glyphWidth s ≤ 166 →
    ∃ t, exec (.char b) s = .next t ∧
      t.mode = s.mode ∧ t.rem = s.rem ∧ t.dw = s.dw ∧ t.ul = s.ul ∧ t.alt = s.alt ∧ t.cfg = s.cfg ∧
      t.input = s.input ∧ t.pos = s.pos ∧ t.events = s.events ∧ PageCanonical t ∧
      t.text = s.text ++ [decodeChar (activeCharset s) b] ∧
      ∃ start stop, start = s.col.val + (if isFirst s then 0 else padWidth s) ∧ stop = start + 5 * glyphWidth s ∧
        t.col.val =
          (match s.cfg.afterPad with
            | .ifRoom => min (stop + padWidth s) 166
            | .ifNotLast => if stop + padWidth s ≤ 165 then stop + padWidth s else stop) ∧
        ∀ c, t.page.read c =
          if s.col.val ≤ c ∧ c < start ∨ stop ≤ c ∧ c < t.col.val then
            storedColumn s.cfg.columnWrite (s.page.read c) (if s.ul then 0x80#8 else 0#8)
          else if start ≤ c ∧ c < stop then
            storedColumn s.cfg.columnWrite (s.page.read c)
              (columnValue s.ul ((Config.fontTable (activeFont s) b).columns.getD ((c - start) / glyphWidth s) 0#8))
          else s.page.read c

/-- R243, R245: a character that does not fit flushes the line and is then placed as the first of the new one. No
warning. -/
def Obligations.CharThatDoesNotFitWraps : Prop :=
  ∀ (s : State) (b : Byte), unmappable s.cfg (activeCharset s) b = false →
    s.col.val + (if isFirst s then 0 else padWidth s) + 5 * glyphWidth s > 166 →
    exec (.char b) s =
        exec (.char b) { s with text := [], page := [], col := 0, events := s.events ++ [.flush s.text s.page] } ∧
      ∃ t, exec (.char b) s = .next t ∧ t.text = [decodeChar (activeCharset s) b] ∧
        t.events = s.events ++ [.flush s.text s.page]

/-- R247: a line of up to 24 normal-width characters fits, from column 0, under every policy; after k of them the column is
7k - 1, and 166 after 24. Glyph i (from 0) stands at columns 7i to 7i + 4, the columns 7i + 5 and 7i + 6 up to the current
one are padding, and the columns from the current one on are as they were. -/
def Obligations.NormalLineHoldsTwentyFour : Prop :=
  ∀ (s : State) (bytes rest : List Byte), PageCanonical s → s.mode = .text → s.dw = false → s.cfg.unmappable = [] →
    s.col.val = 0 → s.text = [] → s.input = bytes ++ rest → bytes.length ≤ 24 → (∀ b ∈ bytes, charOperandOk b = true) →
    ∃ t, Host.Core.run Sys2Proof.core bytes.length s = .next t ∧ t.input = rest ∧ t.events = s.events ∧
      t.text = bytes.map (decodeChar (activeCharset s)) ∧
      t.col.val = (if bytes.length = 0 then 0 else if bytes.length = 24 then 166 else 7 * bytes.length - 1) ∧
      PageCanonical t ∧
      (∀ i j, (h : i < bytes.length) → j < 5 →
        t.page.read (7 * i + j) =
          storedColumn s.cfg.columnWrite (s.page.read (7 * i + j))
            (columnValue s.ul ((Config.fontTable (activeFont s) bytes[i]).columns.getD j 0#8))) ∧
      (∀ i j, i < bytes.length → j = 5 ∨ j = 6 → 7 * i + j < t.col.val →
        t.page.read (7 * i + j) =
          storedColumn s.cfg.columnWrite (s.page.read (7 * i + j)) (if s.ul then 0x80#8 else 0x00#8)) ∧
      ∀ c, t.col.val ≤ c → t.page.read c = s.page.read c

/-! ### Escape codes -/

/-- R171: RESET clears the flags, the graphics counter and the text, and keeps the page; the column by RESET_COLUMN. No
event. Inside a payload its bytes are two columns. -/
def Obligations.ResetClearsAllButThePage : Prop :=
  (∀ e : EscMap, decode e .escapePending 0xFF#8 = .reset ∧ decode e .graphics 0x1B#8 = .gfxColumn 0x1B#8 ∧
    decode e .graphics 0xFF#8 = .gfxColumn 0xFF#8) ∧
  ∀ s : State,
    exec .reset s =
      .next { s with
        mode := .text, rem := 0#8, dw := false, ul := false, alt := false, text := []
        col := match s.cfg.resetColumn with
          | .zero => 0
          | .keep => s.col }

/-- R173 to R179: each flag code writes its one flag, returns to TEXT and changes nothing else. -/
def Obligations.FlagCodesWriteOneFlag : Prop :=
  (∀ e : EscMap, decode e .escapePending 0xFD#8 = .startDoubleWide ∧ decode e .escapePending 0xFC#8 = .stopDoubleWide) ∧
  ∀ s : State,
    exec .startDoubleWide s = .next { s with dw := true, mode := .text } ∧
    exec .stopDoubleWide s = .next { s with dw := false, mode := .text } ∧
    exec .startUnderline s = .next { s with ul := true, mode := .text } ∧
    exec .stopUnderline s = .next { s with ul := false, mode := .text } ∧
    exec .startAltCharset s = .next { s with alt := true, mode := .text } ∧
    exec .stopAltCharset s = .next { s with alt := false, mode := .text }

/-- R27: a flag changes only by its own two codes, RESET and SELF_TEST. -/
def Obligations.FlagsChangeOnlyByTheirCodes : Prop :=
  ∀ (i : Instr) (s t : State), exec i s = .next t →
    (t.dw ≠ s.dw → i = .startDoubleWide ∨ i = .stopDoubleWide ∨ i = .reset ∨ i = .selfTest) ∧
    (t.ul ≠ s.ul → i = .startUnderline ∨ i = .stopUnderline ∨ i = .reset ∨ i = .selfTest) ∧
    (t.alt ≠ s.alt → i = .startAltCharset ∨ i = .stopAltCharset ∨ i = .reset ∨ i = .selfTest)

/-- R170, R304: from ESCAPE_PENDING one byte, whatever it is, ends the escape: a reserved byte leaves TEXT, any other byte
starts a header of that length. -/
def Obligations.EscapeTakesExactlyOneByte : Prop :=
  ∀ (s : State) (b : Byte) (rest : List Byte), s.mode = .escapePending → s.input = b :: rest →
    ∃ t, step s = .next t ∧ t.mode ≠ .escapePending ∧ t.input = rest ∧
      (0xF8 ≤ b.toNat → t.mode = .text) ∧
      (b.toNat < 0xF8 → t.rem = b ∧ (b ≠ 0#8 → t.mode = .graphics))

/-- R180, R181: the header sets the count and the mode; a length of 0 or above 166 raises one warning and is honoured all the
same; no flush. The mode after length 0 is R182's. -/
def Obligations.GraphicsHeaderSetsTheCount : Prop :=
  (∀ (e : EscMap) (c : Byte), c.toNat ≤ 247 → decode e .escapePending c = .graphicsMode c) ∧
  ∀ (s : State) (n : Byte), n.toNat ≤ 247 →
    exec (.graphicsMode n) s =
      .next { s with
        rem := n
        mode := if n = 0#8 ∧ s.cfg.gfxZero = .immediate then .text else .graphics
        events := s.events ++ if n.toNat = 0 ∨ n.toNat > 166 then [.warn .gfxLength n] else [] }

/-- U4, R144: an operand 248..255 is no length; the model refuses it (log 12), and no byte decodes to it. -/
def Obligations.LengthAbove247IsRefused : Prop :=
  (∀ (s : State) (n : Byte), 247 < n.toNat → exec (.graphicsMode n) s = .refused .lengthNotEncodable) ∧
  ∀ (e : EscMap) (m : Mode) (b n : Byte), decode e m b = .graphicsMode n → n.toNat ≤ 247

/-! ### GRAPHICS -/

/-- R200, R201, R71: a payload byte in single width, with room on the line. -/
def Obligations.PayloadByteDrawsOneColumn : Prop :=
  ∀ (s : State) (p : Byte), PageCanonical s → s.dw = false → s.col.val < 166 →
    ∃ t, exec (.gfxColumn p) s = .next t ∧ PageCanonical t ∧
      t.page.read s.col.val =
        storedColumn s.cfg.columnWrite (s.page.read s.col.val) (if s.ul then p ||| 0x80#8 else p) ∧
      (∀ c, c ≠ s.col.val → t.page.read c = s.page.read c) ∧
      t.col.val = s.col.val + 1 ∧ t.text = s.text ∧ t.events = s.events ∧
      t.dw = s.dw ∧ t.ul = s.ul ∧ t.alt = s.alt ∧ t.cfg = s.cfg ∧ t.input = s.input ∧ t.pos = s.pos

/-- R200, R240: a payload byte in double width, with room for both copies. -/
def Obligations.PayloadByteIsDoubled : Prop :=
  ∀ (s : State) (p : Byte), PageCanonical s → s.dw = true → s.col.val < 165 →
    ∃ t, exec (.gfxColumn p) s = .next t ∧ PageCanonical t ∧
      (∀ c, c = s.col.val ∨ c = s.col.val + 1 →
        t.page.read c = storedColumn s.cfg.columnWrite (s.page.read c) (if s.ul then p ||| 0x80#8 else p)) ∧
      (∀ c, c ≠ s.col.val → c ≠ s.col.val + 1 → t.page.read c = s.page.read c) ∧
      t.col.val = s.col.val + 2 ∧ t.text = s.text ∧ t.events = s.events ∧
      t.dw = s.dw ∧ t.ul = s.ul ∧ t.alt = s.alt ∧ t.cfg = s.cfg ∧ t.input = s.input ∧ t.pos = s.pos

/-- R203 (D15, a parameter): the second copy of a doubled column at the last position. -/
def Obligations.DuplicateAtLastColumn : Prop :=
  ∀ (s : State) (p : Byte), PageCanonical s → s.dw = true → s.col.val = 165 →
    ∃ t m, exec (.gfxColumn p) s = .next t ∧ Memory.wf m = true ∧ PageCanonical t ∧
      m.read 165 = storedColumn s.cfg.columnWrite (s.page.read 165) (if s.ul then p ||| 0x80#8 else p) ∧
      (∀ c, c ≠ 165 → m.read c = s.page.read c) ∧
      t.dw = s.dw ∧ t.ul = s.ul ∧ t.alt = s.alt ∧ t.cfg = s.cfg ∧ t.input = s.input ∧ t.pos = s.pos ∧
      (s.cfg.dupOverflow = .discard →
        t.page = m ∧ t.col.val = 166 ∧ t.text = s.text ∧ t.events = s.events) ∧
      (s.cfg.dupOverflow = .flushThenWrite →
        t.page.read 0 = (if s.ul then p ||| 0x80#8 else p) ∧ (∀ c, c ≠ 0 → t.page.read c = 0#8) ∧ t.col.val = 1 ∧
        t.text = [] ∧ t.events = s.events ++ [.warn .gfxOverflow s.rem, .flush s.text m])

/-- R202: on a full line a payload byte first raises the overflow warning and flushes, and is then drawn on the fresh line,
the count and the flags being those before. -/
def Obligations.FullLineForcesFlush : Prop :=
  ∀ (s : State) (p : Byte), s.col.val = 166 →
    exec (.gfxColumn p) s =
        exec (.gfxColumn p) { s with
          text := [], page := [], col := 0
          events := s.events ++ [.warn .gfxOverflow s.rem, .flush s.text s.page] } ∧
      ∃ t, exec (.gfxColumn p) s = .next t ∧
        t.events = s.events ++ [.warn .gfxOverflow s.rem, .flush s.text s.page] ∧ t.text = [] ∧
        t.page.read 0 = (if s.ul then p ||| 0x80#8 else p) ∧ t.col.val = (if s.dw then 2 else 1)

/-- R200, R204: the count after a payload byte, whatever is drawn. With a count of 0 the three policies of R204 (D11); under
IMMEDIATE that state is not legal and nothing is said. -/
def Obligations.PayloadByteCountsDown : Prop :=
  ∀ (s : State) (p : Byte), ∃ t, exec (.gfxColumn p) s = .next t ∧
    (2 ≤ s.rem.toNat → t.rem.toNat = s.rem.toNat - 1 ∧ t.mode = s.mode) ∧
    (s.rem.toNat = 1 → t.rem.toNat = 0 ∧ t.mode = .text) ∧
    (s.rem.toNat = 0 →
      (s.cfg.gfxZero = .oneByte → t.rem.toNat = 0 ∧ t.mode = .text) ∧
      (s.cfg.gfxZero = .wrap256 → t.rem.toNat = 255 ∧ t.mode = s.mode) ∧
      (s.cfg.gfxZero = .never → t.rem.toNat = 0 ∧ t.mode = s.mode))

/-- R206, R305: a payload takes exactly as many bytes as its count, whatever they are, and the mode returns to TEXT on the
last of them, not before. -/
def Obligations.PayloadTakesExactlyItsBytes : Prop :=
  ∀ (bytes rest : List Byte) (s : State), s.mode = .graphics → bytes ≠ [] → s.rem.toNat = bytes.length →
    s.input = bytes ++ rest →
    ∀ k, k ≤ bytes.length → ∃ t, Host.Core.run Sys2Proof.core k s = .next t ∧ t.input = bytes.drop k ++ rest ∧
      t.rem.toNat = bytes.length - k ∧ t.mode = (if k = bytes.length then .text else .graphics)

/-- R182, R204 (WRAP_256): a zero-length payload takes exactly 256 bytes. -/
def Obligations.WrapPolicyTakes256Bytes : Prop :=
  ∀ (bytes rest : List Byte) (s : State), s.mode = .graphics → s.cfg.gfxZero = .wrap256 → s.rem = 0#8 →
    bytes.length = 256 → s.input = bytes ++ rest →
    ∀ k, 1 ≤ k → k ≤ 256 → ∃ t, Host.Core.run Sys2Proof.core k s = .next t ∧ t.input = bytes.drop k ++ rest ∧
      t.rem.toNat = 256 - k ∧ t.mode = (if k = 256 then .text else .graphics)

/-- R182, R204, U5 (NEVER): once the count is zero in GRAPHICS, every byte sequence leaves the block there. -/
def Obligations.NeverPolicyIsStuckInGraphics : Prop :=
  ∀ (s : State), s.mode = .graphics → s.cfg.gfxZero = .never → s.rem = 0#8 →
    ∀ k, k ≤ s.input.length → ∃ t, Host.Core.run Sys2Proof.core k s = .next t ∧ t.mode = .graphics ∧ t.rem = 0#8 ∧
      t.input = s.input.drop k

/-! ### Self-test -/

/-- R172, R220, R222, R225: SELF_TEST answers, ends at the construction values, and emits first the stale page with an empty
text and last a blank line. -/
def Obligations.SelfTestEndsAtConstruction : Prop :=
  ∀ s : State, ∃ evs,
    exec .selfTest s =
      .next { s with
        mode := .text, rem := 0#8, dw := false, ul := false, alt := false, col := 0, page := [], text := []
        events := s.events ++ evs } ∧
    evs.head? = some (.flush [] s.page) ∧ evs.getLast? = some (.flush [] [])

/-- R224: with no unmappable character and no flush caused by the marker's or the battery line's operations, the sequence
emits exactly 14 events, each a Flush. -/
def Obligations.SelfTestEmitsFourteenFlushes : Prop :=
  ∀ s : State, s.cfg.unmappable = [] →
    (∀ u : State, u.cfg = s.cfg → u.dw = false → u.ul = false → u.alt = false → u.col.val = 48 → u.text.length = 7 →
      (runOps u s.cfg.selfTestMarker).events = u.events) →
    (∀ u : State, u.cfg = s.cfg → u.dw = false → u.ul = false → u.alt = false → u.col.val = 0 → u.text = [] →
      (runOps u s.cfg.selfTestBattery).events = u.events) →
    ∃ t evs, exec .selfTest s = .next t ∧ t.events = s.events ++ evs ∧ evs.length = 14 ∧
      ∀ e ∈ evs, ∃ text bitmap, e = .flush text bitmap

/-- R220, R221, R225: the nine full rows. Row r is event r + 2 of the sequence; its text is the 24 characters from position
32 + 24r (position 32 as an underscore), and its bitmap has glyph k (from 0) at columns 7k to 7k + 4 and blank columns
elsewhere. -/
def Obligations.SelfTestRows : Prop :=
  ∀ s : State, s.cfg.unmappable = [] →
    ∃ t, exec .selfTest s = .next t ∧
      ∀ r, r < 9 → ∃ bitmap,
        (t.events.drop s.events.length)[r + 1]? =
          some (.flush ((List.range 24).map fun k =>
              decodeChar (charsetSel s.cfg s.cfg.modelFlag false)
                (if 24 * r + k = 0 then 0x5F#8 else BitVec.ofNat 8 (32 + 24 * r + k))) bitmap) ∧
        Memory.wf bitmap = true ∧
        ∀ k j, k < 24 → j < 7 → 7 * k + j < 166 →
          bitmap.read (7 * k + j) =
            (Config.fontTable (fontSel s.cfg s.cfg.modelFlag false)
              (if 24 * r + k = 0 then 0x5F#8 else BitVec.ofNat 8 (32 + 24 * r + k))).columns.getD j 0#8

/-- R223, R240: what the operations of the two open lists are. They run in order. `Char(b)` is what CHAR of that byte does.
`Col(v)` puts the column, twice in double width, as far as the line has room, and changes nothing else. -/
def Obligations.SelfTestOperationsRunInOrder : Prop :=
  ∀ u : State,
    runOps u [] = u ∧
    (∀ op ops, runOps u (op :: ops) = runOps (runOps u [op]) ops) ∧
    (∀ b, exec (.char b) u = .next (runOps u [.char b])) ∧
    (PageCanonical u → ∀ v, ∃ page col,
      runOps u [.col v] = { u with page := page, col := col } ∧ Memory.wf page = true ∧
      col.val = min (u.col.val + (if u.dw then 2 else 1)) 166 ∧
      ∀ c, page.read c =
        if u.col.val ≤ c ∧ c < col.val then storedColumn u.cfg.columnWrite (u.page.read c) v else u.page.read c)

/-- R220 to R223, R225, events 11 to 14. After ten events the block is at column 48 with the characters of positions 248 to
254 on the line, glyph k (from 0) at columns 7k to 7k + 4 and blank elsewhere. From there the marker's operations run, the
line and a blank line are flushed, the battery line's operations run from an empty line, and that line and a blank line are
flushed. -/
def Obligations.SelfTestLastLines : Prop :=
  ∀ s : State, s.cfg.unmappable = [] →
    ∃ t u m b evs, exec .selfTest s = .next t ∧
      (u.mode = .text ∧ u.rem = 0#8 ∧ u.dw = false ∧ u.ul = false ∧ u.alt = false ∧ u.cfg = s.cfg ∧
        u.input = s.input ∧ u.pos = s.pos ∧ u.events = s.events ++ evs ∧ evs.length = 10 ∧ u.col.val = 48 ∧
        u.text = [0xF8#8, 0xF9#8, 0xFA#8, 0xFB#8, 0xFC#8, 0xFD#8, 0xFE#8].map
          (decodeChar (charsetSel s.cfg s.cfg.modelFlag false)) ∧
        PageCanonical u ∧
        (∀ k j, k < 7 → j < 7 →
          u.page.read (7 * k + j) =
            (Config.fontTable (fontSel s.cfg s.cfg.modelFlag false) (BitVec.ofNat 8 (248 + k))).columns.getD j 0#8) ∧
        ∀ c, 49 ≤ c → u.page.read c = 0#8) ∧
      m = runOps u s.cfg.selfTestMarker ∧
      b = runOps { m with text := [], page := [], col := 0, events := m.events ++ [.flush m.text m.page, .flush [] []] }
            s.cfg.selfTestBattery ∧
      t.events = b.events ++ [.flush b.text b.page, .flush [] []]

/-! ### Invariants -/

/-- R37, R39: construction is legal. -/
def Obligations.ConstructionIsLegal : Prop := Legal State.reset ∧ BlankAhead State.reset

/-- R22, R29, R30, R36, R39 items 2 and 3: every step keeps the page canonical, the count idle outside GRAPHICS and within its
policy's range inside it, the line within its 24 characters, and every emitted line legal. -/
def Obligations.StepKeepsLegal : Prop :=
  ∀ s t : State, Legal s → step s = .next t → Legal t

/-- R39 item 4: only a RESET with RESET_COLUMN = ZERO can leave a pixel at or past the current column. -/
def Obligations.OnlyResetLeavesStalePixels : Prop :=
  ∀ (i : Instr) (s t : State), PageCanonical s → BlankAhead s → exec i s = .next t →
    (i = .reset ∧ s.cfg.resetColumn = .zero) ∨ BlankAhead t

/-- R271 to R274: a warning is raised only for its listed cause, with its listed info. -/
def Obligations.WarningsOnlyForTheirCauses : Prop :=
  ∀ (i : Instr) (s t : State) (evs : List Event) (code : WarnCode) (info : Byte),
    exec i s = .next t → t.events = s.events ++ evs → Event.warn code info ∈ evs →
    match code with
    | .gfxLength => i = .graphicsMode info ∧ (info.toNat = 0 ∨ info.toNat > 166)
    | .gfxOverflow => (∃ p, i = .gfxColumn p) ∧ info = s.rem ∧
        (s.col.val = 166 ∨ (s.dw = true ∧ s.col.val = 165 ∧ s.cfg.dupOverflow = .flushThenWrite))
    | .unmappable => (i = .char info ∧ unmappable s.cfg (activeCharset s) info = true) ∨
        (i = .selfTest ∧ unmappable s.cfg (charsetSel s.cfg s.cfg.modelFlag false) info = true)

/-- C11, R276: a Flush event comes from a terminator, a text wrap, a graphics overflow or the self-test, and from nothing
else. -/
def Obligations.FlushesOnlyAtTheirPoints : Prop :=
  ∀ (i : Instr) (s t : State) (evs : List Event) (text : List CodePoint) (bitmap : Memory),
    exec i s = .next t → t.events = s.events ++ evs → Event.flush text bitmap ∈ evs →
    i = .lf ∨ i = .eol ∨ i = .selfTest ∨
    (∃ b, i = .char b ∧
      s.col.val + (if isFirst s then 0 else padWidth s) + 5 * glyphWidth s > 166) ∨
    (∃ p, i = .gfxColumn p ∧
      (s.col.val = 166 ∨ (s.dw = true ∧ s.col.val = 165 ∧ s.cfg.dupOverflow = .flushThenWrite)))

/-- R76, R275: what has been emitted, warnings among it, never feeds back: an instruction run after any other observation
does the same and adds the same events. -/
def Obligations.ObservationDoesNotFeedBack : Prop :=
  ∀ (i : Instr) (s t : State) (before : List Event), exec i s = .next t →
    exec i { s with events := before ++ s.events } = .next { t with events := before ++ t.events }

/-- R311: no lookahead. What an instruction does depends neither on the bytes still to come nor on their position. -/
def Obligations.NoLookahead : Prop :=
  ∀ (i : Instr) (s t : State) (later : List Byte) (at' : Nat), exec i s = .next t →
    exec i { s with input := later, pos := at' } = .next { t with input := later, pos := at' }

/-- R303: under IMMEDIATE or ONE_BYTE, 248 bytes 0x0A and then `1B FF` bring the block from any legal state to the construction
values. -/
def Obligations.ResynchronisationReachesConstruction : Prop :=
  ∀ (s : State) (rest : List Byte), Legal s → s.cfg.gfxZero = .immediate ∨ s.cfg.gfxZero = .oneByte →
    s.input = List.replicate 248 0x0A#8 ++ [0x1B#8, 0xFF#8] ++ rest →
    ∃ t, Host.Core.run Sys2Proof.core 250 s = .next t ∧ AtConstruction t ∧ t.input = rest ∧ t.cfg = s.cfg
end

