-- ==== Sys2Proof/Laws/Memory.lean ====
section
/-! SUPPORT. The page's laws: read after write, and every operation keeps the canonical form. -/

namespace Sys2Proof.Machine

open Sys2Proof

@[simp] theorem Memory.read_nil (c : Nat) : Memory.read [] c = 0#8 := rfl

@[simp] theorem Memory.wf_nil : Memory.wf [] = true := rfl

theorem Memory.read_cons (a : Nat) (b : Byte) (rest : Memory) (c : Nat) :
    Memory.read ((a, b) :: rest) c = if a = c then b else Memory.read rest c := rfl

/-- In a canonical tail that starts at `lo`, every column before `lo` is blank. -/
theorem Memory.read_before {m : Memory} : ∀ {lo : Nat}, Memory.wfFrom lo m = true → ∀ c, c < lo → m.read c = 0#8 := by
  induction m with
  | nil => intros; rfl
  | cons p rest ih =>
    obtain ⟨a, b⟩ := p
    intro lo h c hc
    simp only [Memory.wfFrom, Bool.and_eq_true, decide_eq_true_eq] at h
    rw [Memory.read_cons, if_neg (by omega)]
    exact ih h.2 c (by omega)

/-- No column at or past 166 is listed. -/
theorem Memory.read_past {m : Memory} : ∀ {lo : Nat}, Memory.wfFrom lo m = true → ∀ c, pageWidth ≤ c → m.read c = 0#8 := by
  induction m with
  | nil => intros; rfl
  | cons p rest ih =>
    obtain ⟨a, b⟩ := p
    intro lo h c hc
    simp only [Memory.wfFrom, Bool.and_eq_true, decide_eq_true_eq] at h
    rw [Memory.read_cons, if_neg (by omega)]
    exact ih h.2 c hc

theorem Memory.wfFrom_mono {m : Memory} {lo lo' : Nat} (h : Memory.wfFrom lo m = true) (hl : lo' ≤ lo) :
    Memory.wfFrom lo' m = true := by
  cases m with
  | nil => rfl
  | cons p rest =>
    obtain ⟨a, b⟩ := p
    simp only [Memory.wfFrom, Bool.and_eq_true, decide_eq_true_eq] at h ⊢
    exact ⟨⟨by omega, h.1.2⟩, h.2⟩

theorem Memory.read_cell (c : Nat) (v : Byte) (rest : Memory) (a : Nat) (h : rest.read c = 0#8) :
    (Memory.cell c v rest).read a = if a = c then v else rest.read a := by
  unfold Memory.cell
  split
  · rename_i hv
    split
    · rename_i ha
      rw [ha, h, hv]
      rfl
    · rfl
  · rw [Memory.read_cons]
    simp only [eq_comm]

theorem Memory.wfFrom_cell {c : Nat} {v : Byte} {rest : Memory} {lo : Nat} (hr : Memory.wfFrom (c + 1) rest = true)
    (hl : lo ≤ c) (hc : c < pageWidth) : Memory.wfFrom lo (Memory.cell c v rest) = true := by
  unfold Memory.cell
  split
  · exact Memory.wfFrom_mono hr (by omega)
  · rename_i hv
    simp only [Memory.wfFrom, Bool.and_eq_true, decide_eq_true_eq, bne_iff_ne]
    exact ⟨⟨⟨hl, hc⟩, hv⟩, hr⟩

/-- A write changes the column it names and no other one. -/
theorem Memory.read_writeFrom {m : Memory} : ∀ {lo : Nat}, Memory.wfFrom lo m = true → ∀ (c : Nat) (v : Byte) (a : Nat),
    (m.write c v).read a = if a = c then v else m.read a := by
  induction m with
  | nil => intro _ _ c v a; exact Memory.read_cell c v [] a rfl
  | cons p rest ih =>
    obtain ⟨x, b⟩ := p
    intro lo h c v a
    have h' := h
    simp only [Memory.wfFrom, Bool.and_eq_true, decide_eq_true_eq] at h
    rw [Memory.write]
    split
    · rename_i hlt
      refine Memory.read_cell c v _ a ?_
      rw [Memory.read_cons, if_neg (by omega)]
      exact Memory.read_before h.2 c (by omega)
    · split
      · rename_i hc
        rw [Memory.read_cell c v rest a (Memory.read_before h.2 c (by omega)), Memory.read_cons]
        split
        · rfl
        · rw [if_neg (by omega)]
      · rw [Memory.read_cons, Memory.read_cons, ih h.2]
        split
        · rw [if_neg (by omega)]
        · rfl

theorem Memory.wfFrom_write {m : Memory} : ∀ {lo : Nat}, Memory.wfFrom lo m = true → ∀ {c : Nat} (v : Byte),
    lo ≤ c → c < pageWidth → Memory.wfFrom lo (m.write c v) = true := by
  induction m with
  | nil => intro lo _ c v hl hc; exact Memory.wfFrom_cell (rest := []) rfl hl hc
  | cons p rest ih =>
    obtain ⟨x, b⟩ := p
    intro lo h c v hl hc
    have h' := h
    simp only [Memory.wfFrom, Bool.and_eq_true, decide_eq_true_eq, bne_iff_ne] at h
    rw [Memory.write]
    split
    · refine Memory.wfFrom_cell ?_ hl hc
      simp only [Memory.wfFrom, Bool.and_eq_true, decide_eq_true_eq, bne_iff_ne]
      exact ⟨⟨⟨by omega, h.1.1.2⟩, h.1.2⟩, h.2⟩
    · split
      · rename_i hx
        exact Memory.wfFrom_cell (hx ▸ h.2) hl hc
      · simp only [Memory.wfFrom, Bool.and_eq_true, decide_eq_true_eq, bne_iff_ne]
        exact ⟨h.1, ih h.2 v (by omega) hc⟩

/-- Every write inside the page keeps the canonical form. -/
theorem Memory.wf_write {m : Memory} (h : m.wf = true) {c : Nat} (v : Byte) (hc : c < pageWidth) :
    (m.write c v).wf = true :=
  Memory.wfFrom_write h v (Nat.zero_le c) hc

/-- Reading after a write to the same column gives the value written. -/
theorem Memory.read_write_same {m : Memory} (h : m.wf = true) (c : Nat) (v : Byte) : (m.write c v).read c = v := by
  rw [Memory.read_writeFrom h, if_pos rfl]

/-- A write leaves every other column alone. -/
theorem Memory.read_write_other {m : Memory} (h : m.wf = true) {c a : Nat} (v : Byte) (ha : a ≠ c) :
    (m.write c v).read a = m.read a := by
  rw [Memory.read_writeFrom h, if_neg ha]

/-- Two canonical pages that read alike are the same data. -/
theorem Memory.ext_of_read {m : Memory} : ∀ {m' : Memory} {lo lo' : Nat}, Memory.wfFrom lo m = true →
    Memory.wfFrom lo' m' = true → (∀ c, m.read c = m'.read c) → m = m' := by
  induction m with
  | nil =>
    intro m' _ lo' _ h' he
    cases m' with
    | nil => rfl
    | cons p rest =>
      obtain ⟨a, b⟩ := p
      simp only [Memory.wfFrom, Bool.and_eq_true, bne_iff_ne] at h'
      have := he a
      rw [Memory.read_cons, if_pos rfl] at this
      exact absurd this.symm h'.1.2
  | cons p rest ih =>
    obtain ⟨a, b⟩ := p
    intro m' lo lo' h h' he
    simp only [Memory.wfFrom, Bool.and_eq_true, bne_iff_ne] at h
    cases m' with
    | nil =>
      have := he a
      rw [Memory.read_cons, if_pos rfl] at this
      exact absurd this h.1.2
    | cons p' rest' =>
      obtain ⟨a', b'⟩ := p'
      simp only [Memory.wfFrom, Bool.and_eq_true, bne_iff_ne] at h'
      have haa : a = a' := by
        rcases Nat.lt_trichotomy a a' with hlt | heq | hgt
        · have := he a
          rw [Memory.read_cons, if_pos rfl, Memory.read_cons, if_neg (by omega),
            Memory.read_before h'.2 a (by omega)] at this
          exact absurd this h.1.2
        · exact heq
        · have := he a'
          rw [Memory.read_cons, if_neg (by omega), Memory.read_cons, if_pos rfl,
            Memory.read_before h.2 a' (by omega)] at this
          exact absurd this.symm h'.1.2
      subst haa
      have hbb : b = b' := by
        have := he a
        rwa [Memory.read_cons, if_pos rfl, Memory.read_cons, if_pos rfl] at this
      subst hbb
      congr 1
      refine ih h.2 h'.2 fun c => ?_
      by_cases hc : c < a + 1
      · rw [Memory.read_before h.2 c hc, Memory.read_before h'.2 c hc]
      · have := he c
        rwa [Memory.read_cons, if_neg (by omega), Memory.read_cons, if_neg (by omega)] at this

end Sys2Proof.Machine
end

