-- ==== Sys2Proof/Laws/State.lean ====
section
/-! SUPPORT. One lemma per field per update of State, each true by rfl, so that no later proof unfolds a record update. -/

namespace Sys2Proof.Machine

open Sys2Proof

variable (s : State)

/-! `setDw` -/

@[simp] theorem setDw_mode (v : Bool) : (setDw s v).mode = s.mode := rfl
@[simp] theorem setDw_rem (v : Bool) : (setDw s v).rem = s.rem := rfl
@[simp] theorem setDw_dw (v : Bool) : (setDw s v).dw = v := rfl
@[simp] theorem setDw_ul (v : Bool) : (setDw s v).ul = s.ul := rfl
@[simp] theorem setDw_alt (v : Bool) : (setDw s v).alt = s.alt := rfl
@[simp] theorem setDw_col (v : Bool) : (setDw s v).col = s.col := rfl
@[simp] theorem setDw_page (v : Bool) : (setDw s v).page = s.page := rfl
@[simp] theorem setDw_text (v : Bool) : (setDw s v).text = s.text := rfl
@[simp] theorem setDw_cfg (v : Bool) : (setDw s v).cfg = s.cfg := rfl
@[simp] theorem setDw_input (v : Bool) : (setDw s v).input = s.input := rfl
@[simp] theorem setDw_pos (v : Bool) : (setDw s v).pos = s.pos := rfl
@[simp] theorem setDw_events (v : Bool) : (setDw s v).events = s.events := rfl

/-! `setUl` -/

@[simp] theorem setUl_mode (v : Bool) : (setUl s v).mode = s.mode := rfl
@[simp] theorem setUl_rem (v : Bool) : (setUl s v).rem = s.rem := rfl
@[simp] theorem setUl_dw (v : Bool) : (setUl s v).dw = s.dw := rfl
@[simp] theorem setUl_ul (v : Bool) : (setUl s v).ul = v := rfl
@[simp] theorem setUl_alt (v : Bool) : (setUl s v).alt = s.alt := rfl
@[simp] theorem setUl_col (v : Bool) : (setUl s v).col = s.col := rfl
@[simp] theorem setUl_page (v : Bool) : (setUl s v).page = s.page := rfl
@[simp] theorem setUl_text (v : Bool) : (setUl s v).text = s.text := rfl
@[simp] theorem setUl_cfg (v : Bool) : (setUl s v).cfg = s.cfg := rfl
@[simp] theorem setUl_input (v : Bool) : (setUl s v).input = s.input := rfl
@[simp] theorem setUl_pos (v : Bool) : (setUl s v).pos = s.pos := rfl
@[simp] theorem setUl_events (v : Bool) : (setUl s v).events = s.events := rfl

/-! `setAlt` -/

@[simp] theorem setAlt_mode (v : Bool) : (setAlt s v).mode = s.mode := rfl
@[simp] theorem setAlt_rem (v : Bool) : (setAlt s v).rem = s.rem := rfl
@[simp] theorem setAlt_dw (v : Bool) : (setAlt s v).dw = s.dw := rfl
@[simp] theorem setAlt_ul (v : Bool) : (setAlt s v).ul = s.ul := rfl
@[simp] theorem setAlt_alt (v : Bool) : (setAlt s v).alt = v := rfl
@[simp] theorem setAlt_col (v : Bool) : (setAlt s v).col = s.col := rfl
@[simp] theorem setAlt_page (v : Bool) : (setAlt s v).page = s.page := rfl
@[simp] theorem setAlt_text (v : Bool) : (setAlt s v).text = s.text := rfl
@[simp] theorem setAlt_cfg (v : Bool) : (setAlt s v).cfg = s.cfg := rfl
@[simp] theorem setAlt_input (v : Bool) : (setAlt s v).input = s.input := rfl
@[simp] theorem setAlt_pos (v : Bool) : (setAlt s v).pos = s.pos := rfl
@[simp] theorem setAlt_events (v : Bool) : (setAlt s v).events = s.events := rfl

/-! `setMode` -/

@[simp] theorem setMode_mode (m : Mode) : (setMode s m).mode = m := rfl
@[simp] theorem setMode_rem (m : Mode) : (setMode s m).rem = s.rem := rfl
@[simp] theorem setMode_dw (m : Mode) : (setMode s m).dw = s.dw := rfl
@[simp] theorem setMode_ul (m : Mode) : (setMode s m).ul = s.ul := rfl
@[simp] theorem setMode_alt (m : Mode) : (setMode s m).alt = s.alt := rfl
@[simp] theorem setMode_col (m : Mode) : (setMode s m).col = s.col := rfl
@[simp] theorem setMode_page (m : Mode) : (setMode s m).page = s.page := rfl
@[simp] theorem setMode_text (m : Mode) : (setMode s m).text = s.text := rfl
@[simp] theorem setMode_cfg (m : Mode) : (setMode s m).cfg = s.cfg := rfl
@[simp] theorem setMode_input (m : Mode) : (setMode s m).input = s.input := rfl
@[simp] theorem setMode_pos (m : Mode) : (setMode s m).pos = s.pos := rfl
@[simp] theorem setMode_events (m : Mode) : (setMode s m).events = s.events := rfl

/-! `clearFlags` -/

@[simp] theorem clearFlags_mode : (clearFlags s).mode = s.mode := rfl
@[simp] theorem clearFlags_rem : (clearFlags s).rem = s.rem := rfl
@[simp] theorem clearFlags_dw : (clearFlags s).dw = false := rfl
@[simp] theorem clearFlags_ul : (clearFlags s).ul = false := rfl
@[simp] theorem clearFlags_alt : (clearFlags s).alt = false := rfl
@[simp] theorem clearFlags_col : (clearFlags s).col = s.col := rfl
@[simp] theorem clearFlags_page : (clearFlags s).page = s.page := rfl
@[simp] theorem clearFlags_text : (clearFlags s).text = s.text := rfl
@[simp] theorem clearFlags_cfg : (clearFlags s).cfg = s.cfg := rfl
@[simp] theorem clearFlags_input : (clearFlags s).input = s.input := rfl
@[simp] theorem clearFlags_pos : (clearFlags s).pos = s.pos := rfl
@[simp] theorem clearFlags_events : (clearFlags s).events = s.events := rfl

/-! `emit` -/

@[simp] theorem emit_mode (e : Event) : (emit s e).mode = s.mode := rfl
@[simp] theorem emit_rem (e : Event) : (emit s e).rem = s.rem := rfl
@[simp] theorem emit_dw (e : Event) : (emit s e).dw = s.dw := rfl
@[simp] theorem emit_ul (e : Event) : (emit s e).ul = s.ul := rfl
@[simp] theorem emit_alt (e : Event) : (emit s e).alt = s.alt := rfl
@[simp] theorem emit_col (e : Event) : (emit s e).col = s.col := rfl
@[simp] theorem emit_page (e : Event) : (emit s e).page = s.page := rfl
@[simp] theorem emit_text (e : Event) : (emit s e).text = s.text := rfl
@[simp] theorem emit_cfg (e : Event) : (emit s e).cfg = s.cfg := rfl
@[simp] theorem emit_input (e : Event) : (emit s e).input = s.input := rfl
@[simp] theorem emit_pos (e : Event) : (emit s e).pos = s.pos := rfl
@[simp] theorem emit_events (e : Event) : (emit s e).events = s.events ++ [e] := rfl

/-! `raiseWarn` -/

@[simp] theorem raiseWarn_mode (c : WarnCode) (i : Byte) : (raiseWarn s c i).mode = s.mode := rfl
@[simp] theorem raiseWarn_rem (c : WarnCode) (i : Byte) : (raiseWarn s c i).rem = s.rem := rfl
@[simp] theorem raiseWarn_dw (c : WarnCode) (i : Byte) : (raiseWarn s c i).dw = s.dw := rfl
@[simp] theorem raiseWarn_ul (c : WarnCode) (i : Byte) : (raiseWarn s c i).ul = s.ul := rfl
@[simp] theorem raiseWarn_alt (c : WarnCode) (i : Byte) : (raiseWarn s c i).alt = s.alt := rfl
@[simp] theorem raiseWarn_col (c : WarnCode) (i : Byte) : (raiseWarn s c i).col = s.col := rfl
@[simp] theorem raiseWarn_page (c : WarnCode) (i : Byte) : (raiseWarn s c i).page = s.page := rfl
@[simp] theorem raiseWarn_text (c : WarnCode) (i : Byte) : (raiseWarn s c i).text = s.text := rfl
@[simp] theorem raiseWarn_cfg (c : WarnCode) (i : Byte) : (raiseWarn s c i).cfg = s.cfg := rfl
@[simp] theorem raiseWarn_input (c : WarnCode) (i : Byte) : (raiseWarn s c i).input = s.input := rfl
@[simp] theorem raiseWarn_pos (c : WarnCode) (i : Byte) : (raiseWarn s c i).pos = s.pos := rfl
@[simp] theorem raiseWarn_events (c : WarnCode) (i : Byte) : (raiseWarn s c i).events = s.events ++ [.warn c i] := rfl

/-! `memWrite` -/

@[simp] theorem memWrite_mode (c : Nat) (v : Byte) : (memWrite s c v).mode = s.mode := rfl
@[simp] theorem memWrite_rem (c : Nat) (v : Byte) : (memWrite s c v).rem = s.rem := rfl
@[simp] theorem memWrite_dw (c : Nat) (v : Byte) : (memWrite s c v).dw = s.dw := rfl
@[simp] theorem memWrite_ul (c : Nat) (v : Byte) : (memWrite s c v).ul = s.ul := rfl
@[simp] theorem memWrite_alt (c : Nat) (v : Byte) : (memWrite s c v).alt = s.alt := rfl
@[simp] theorem memWrite_col (c : Nat) (v : Byte) : (memWrite s c v).col = s.col := rfl
@[simp] theorem memWrite_page (c : Nat) (v : Byte) : (memWrite s c v).page = s.page.write c (storedColumn s.cfg.columnWrite (s.page.read c) v) := rfl
@[simp] theorem memWrite_text (c : Nat) (v : Byte) : (memWrite s c v).text = s.text := rfl
@[simp] theorem memWrite_cfg (c : Nat) (v : Byte) : (memWrite s c v).cfg = s.cfg := rfl
@[simp] theorem memWrite_input (c : Nat) (v : Byte) : (memWrite s c v).input = s.input := rfl
@[simp] theorem memWrite_pos (c : Nat) (v : Byte) : (memWrite s c v).pos = s.pos := rfl
@[simp] theorem memWrite_events (c : Nat) (v : Byte) : (memWrite s c v).events = s.events := rfl

/-! `flush` -/

@[simp] theorem flush_mode : (flush s).mode = s.mode := rfl
@[simp] theorem flush_rem : (flush s).rem = s.rem := rfl
@[simp] theorem flush_dw : (flush s).dw = s.dw := rfl
@[simp] theorem flush_ul : (flush s).ul = s.ul := rfl
@[simp] theorem flush_alt : (flush s).alt = s.alt := rfl
@[simp] theorem flush_col : (flush s).col = 0 := rfl
@[simp] theorem flush_page : (flush s).page = [] := rfl
@[simp] theorem flush_text : (flush s).text = [] := rfl
@[simp] theorem flush_cfg : (flush s).cfg = s.cfg := rfl
@[simp] theorem flush_input : (flush s).input = s.input := rfl
@[simp] theorem flush_pos : (flush s).pos = s.pos := rfl
@[simp] theorem flush_events : (flush s).events = s.events ++ [.flush s.text s.page] := rfl

/-! `doReset` -/

@[simp] theorem doReset_mode : (doReset s).mode = .text := rfl
@[simp] theorem doReset_rem : (doReset s).rem = 0#8 := rfl
@[simp] theorem doReset_dw : (doReset s).dw = false := rfl
@[simp] theorem doReset_ul : (doReset s).ul = false := rfl
@[simp] theorem doReset_alt : (doReset s).alt = false := rfl
@[simp] theorem doReset_col : (doReset s).col = resetCol s := rfl
@[simp] theorem doReset_page : (doReset s).page = s.page := rfl
@[simp] theorem doReset_text : (doReset s).text = [] := rfl
@[simp] theorem doReset_cfg : (doReset s).cfg = s.cfg := rfl
@[simp] theorem doReset_input : (doReset s).input = s.input := rfl
@[simp] theorem doReset_pos : (doReset s).pos = s.pos := rfl
@[simp] theorem doReset_events : (doReset s).events = s.events := rfl

/-! `takeByte` -/

@[simp] theorem takeByte_mode (rest : List Byte) : (takeByte s rest).mode = s.mode := rfl
@[simp] theorem takeByte_rem (rest : List Byte) : (takeByte s rest).rem = s.rem := rfl
@[simp] theorem takeByte_dw (rest : List Byte) : (takeByte s rest).dw = s.dw := rfl
@[simp] theorem takeByte_ul (rest : List Byte) : (takeByte s rest).ul = s.ul := rfl
@[simp] theorem takeByte_alt (rest : List Byte) : (takeByte s rest).alt = s.alt := rfl
@[simp] theorem takeByte_col (rest : List Byte) : (takeByte s rest).col = s.col := rfl
@[simp] theorem takeByte_page (rest : List Byte) : (takeByte s rest).page = s.page := rfl
@[simp] theorem takeByte_text (rest : List Byte) : (takeByte s rest).text = s.text := rfl
@[simp] theorem takeByte_cfg (rest : List Byte) : (takeByte s rest).cfg = s.cfg := rfl
@[simp] theorem takeByte_input (rest : List Byte) : (takeByte s rest).input = rest := rfl
@[simp] theorem takeByte_pos (rest : List Byte) : (takeByte s rest).pos = s.pos + 1 := rfl
@[simp] theorem takeByte_events (rest : List Byte) : (takeByte s rest).events = s.events := rfl

/-! `offerByte` -/

@[simp] theorem offerByte_mode (m : Mode) (b : Byte) : (offerByte s m b).mode = m := rfl
@[simp] theorem offerByte_rem (m : Mode) (b : Byte) : (offerByte s m b).rem = s.rem := rfl
@[simp] theorem offerByte_dw (m : Mode) (b : Byte) : (offerByte s m b).dw = s.dw := rfl
@[simp] theorem offerByte_ul (m : Mode) (b : Byte) : (offerByte s m b).ul = s.ul := rfl
@[simp] theorem offerByte_alt (m : Mode) (b : Byte) : (offerByte s m b).alt = s.alt := rfl
@[simp] theorem offerByte_col (m : Mode) (b : Byte) : (offerByte s m b).col = s.col := rfl
@[simp] theorem offerByte_page (m : Mode) (b : Byte) : (offerByte s m b).page = s.page := rfl
@[simp] theorem offerByte_text (m : Mode) (b : Byte) : (offerByte s m b).text = s.text := rfl
@[simp] theorem offerByte_cfg (m : Mode) (b : Byte) : (offerByte s m b).cfg = s.cfg := rfl
@[simp] theorem offerByte_input (m : Mode) (b : Byte) : (offerByte s m b).input = b :: s.input := rfl
@[simp] theorem offerByte_pos (m : Mode) (b : Byte) : (offerByte s m b).pos = s.pos := rfl
@[simp] theorem offerByte_events (m : Mode) (b : Byte) : (offerByte s m b).events = s.events := rfl

/-! `appendText` -/

@[simp] theorem appendText_mode (cp : CodePoint) : (appendText s cp).mode = s.mode := rfl
@[simp] theorem appendText_rem (cp : CodePoint) : (appendText s cp).rem = s.rem := rfl
@[simp] theorem appendText_dw (cp : CodePoint) : (appendText s cp).dw = s.dw := rfl
@[simp] theorem appendText_ul (cp : CodePoint) : (appendText s cp).ul = s.ul := rfl
@[simp] theorem appendText_alt (cp : CodePoint) : (appendText s cp).alt = s.alt := rfl
@[simp] theorem appendText_col (cp : CodePoint) : (appendText s cp).col = s.col := rfl
@[simp] theorem appendText_page (cp : CodePoint) : (appendText s cp).page = s.page := rfl
@[simp] theorem appendText_text (cp : CodePoint) : (appendText s cp).text = s.text ++ [cp] := rfl
@[simp] theorem appendText_cfg (cp : CodePoint) : (appendText s cp).cfg = s.cfg := rfl
@[simp] theorem appendText_input (cp : CodePoint) : (appendText s cp).input = s.input := rfl
@[simp] theorem appendText_pos (cp : CodePoint) : (appendText s cp).pos = s.pos := rfl
@[simp] theorem appendText_events (cp : CodePoint) : (appendText s cp).events = s.events := rfl

/-! `forcedFlush` -/

@[simp] theorem forcedFlush_mode : (forcedFlush s).mode = s.mode := rfl
@[simp] theorem forcedFlush_rem : (forcedFlush s).rem = s.rem := rfl
@[simp] theorem forcedFlush_dw : (forcedFlush s).dw = s.dw := rfl
@[simp] theorem forcedFlush_ul : (forcedFlush s).ul = s.ul := rfl
@[simp] theorem forcedFlush_alt : (forcedFlush s).alt = s.alt := rfl
@[simp] theorem forcedFlush_col : (forcedFlush s).col = 0 := rfl
@[simp] theorem forcedFlush_page : (forcedFlush s).page = [] := rfl
@[simp] theorem forcedFlush_text : (forcedFlush s).text = [] := rfl
@[simp] theorem forcedFlush_cfg : (forcedFlush s).cfg = s.cfg := rfl
@[simp] theorem forcedFlush_input : (forcedFlush s).input = s.input := rfl
@[simp] theorem forcedFlush_pos : (forcedFlush s).pos = s.pos := rfl
@[simp] theorem forcedFlush_events : (forcedFlush s).events = s.events ++ [.warn .gfxOverflow s.rem] ++ [.flush s.text s.page] := rfl

end Sys2Proof.Machine
end

