-- ==== Sys2Proof/Laws/Ops.lean ====
section
/-! SUPPORT. What each shared operation leaves unchanged (one lemma per field, for simp), and one lemma per operation that
says what it does to the column and the page. -/

namespace Sys2Proof.Machine

open Sys2Proof

variable (s : State)

/-! `putCol` -/

@[simp] theorem putCol_mode (v : Byte) : (putCol s v).mode = s.mode := by
  unfold putCol; split <;> rfl

@[simp] theorem putCol_rem (v : Byte) : (putCol s v).rem = s.rem := by
  unfold putCol; split <;> rfl

@[simp] theorem putCol_dw (v : Byte) : (putCol s v).dw = s.dw := by
  unfold putCol; split <;> rfl

@[simp] theorem putCol_ul (v : Byte) : (putCol s v).ul = s.ul := by
  unfold putCol; split <;> rfl

@[simp] theorem putCol_alt (v : Byte) : (putCol s v).alt = s.alt := by
  unfold putCol; split <;> rfl

@[simp] theorem putCol_text (v : Byte) : (putCol s v).text = s.text := by
  unfold putCol; split <;> rfl

@[simp] theorem putCol_cfg (v : Byte) : (putCol s v).cfg = s.cfg := by
  unfold putCol; split <;> rfl

@[simp] theorem putCol_input (v : Byte) : (putCol s v).input = s.input := by
  unfold putCol; split <;> rfl

@[simp] theorem putCol_pos (v : Byte) : (putCol s v).pos = s.pos := by
  unfold putCol; split <;> rfl

@[simp] theorem putCol_events (v : Byte) : (putCol s v).events = s.events := by
  unfold putCol; split <;> rfl

/-! `appendCol` -/

@[simp] theorem appendCol_mode (v : Byte) : (appendCol s v).mode = s.mode := by
  unfold appendCol; simp only; split <;> simp

@[simp] theorem appendCol_rem (v : Byte) : (appendCol s v).rem = s.rem := by
  unfold appendCol; simp only; split <;> simp

@[simp] theorem appendCol_dw (v : Byte) : (appendCol s v).dw = s.dw := by
  unfold appendCol; simp only; split <;> simp

@[simp] theorem appendCol_ul (v : Byte) : (appendCol s v).ul = s.ul := by
  unfold appendCol; simp only; split <;> simp

@[simp] theorem appendCol_alt (v : Byte) : (appendCol s v).alt = s.alt := by
  unfold appendCol; simp only; split <;> simp

@[simp] theorem appendCol_text (v : Byte) : (appendCol s v).text = s.text := by
  unfold appendCol; simp only; split <;> simp

@[simp] theorem appendCol_cfg (v : Byte) : (appendCol s v).cfg = s.cfg := by
  unfold appendCol; simp only; split <;> simp

@[simp] theorem appendCol_input (v : Byte) : (appendCol s v).input = s.input := by
  unfold appendCol; simp only; split <;> simp

@[simp] theorem appendCol_pos (v : Byte) : (appendCol s v).pos = s.pos := by
  unfold appendCol; simp only; split <;> simp

@[simp] theorem appendCol_events (v : Byte) : (appendCol s v).events = s.events := by
  unfold appendCol; simp only; split <;> simp

/-! `padCol` -/

@[simp] theorem padCol_mode (p : Byte) (k : Nat) : (padCol s p k).mode = s.mode := by
  unfold padCol; simp only; split <;> simp

@[simp] theorem padCol_rem (p : Byte) (k : Nat) : (padCol s p k).rem = s.rem := by
  unfold padCol; simp only; split <;> simp

@[simp] theorem padCol_dw (p : Byte) (k : Nat) : (padCol s p k).dw = s.dw := by
  unfold padCol; simp only; split <;> simp

@[simp] theorem padCol_ul (p : Byte) (k : Nat) : (padCol s p k).ul = s.ul := by
  unfold padCol; simp only; split <;> simp

@[simp] theorem padCol_alt (p : Byte) (k : Nat) : (padCol s p k).alt = s.alt := by
  unfold padCol; simp only; split <;> simp

@[simp] theorem padCol_text (p : Byte) (k : Nat) : (padCol s p k).text = s.text := by
  unfold padCol; simp only; split <;> simp

@[simp] theorem padCol_cfg (p : Byte) (k : Nat) : (padCol s p k).cfg = s.cfg := by
  unfold padCol; simp only; split <;> simp

@[simp] theorem padCol_input (p : Byte) (k : Nat) : (padCol s p k).input = s.input := by
  unfold padCol; simp only; split <;> simp

@[simp] theorem padCol_pos (p : Byte) (k : Nat) : (padCol s p k).pos = s.pos := by
  unfold padCol; simp only; split <;> simp

@[simp] theorem padCol_events (p : Byte) (k : Nat) : (padCol s p k).events = s.events := by
  unfold padCol; simp only; split <;> simp

/-! `afterPad` -/

@[simp] theorem afterPad_mode (p : Byte) (k : Nat) : (afterPad s p k).mode = s.mode := by
  unfold afterPad; split <;> simp

@[simp] theorem afterPad_rem (p : Byte) (k : Nat) : (afterPad s p k).rem = s.rem := by
  unfold afterPad; split <;> simp

@[simp] theorem afterPad_dw (p : Byte) (k : Nat) : (afterPad s p k).dw = s.dw := by
  unfold afterPad; split <;> simp

@[simp] theorem afterPad_ul (p : Byte) (k : Nat) : (afterPad s p k).ul = s.ul := by
  unfold afterPad; split <;> simp

@[simp] theorem afterPad_alt (p : Byte) (k : Nat) : (afterPad s p k).alt = s.alt := by
  unfold afterPad; split <;> simp

@[simp] theorem afterPad_text (p : Byte) (k : Nat) : (afterPad s p k).text = s.text := by
  unfold afterPad; split <;> simp

@[simp] theorem afterPad_cfg (p : Byte) (k : Nat) : (afterPad s p k).cfg = s.cfg := by
  unfold afterPad; split <;> simp

@[simp] theorem afterPad_input (p : Byte) (k : Nat) : (afterPad s p k).input = s.input := by
  unfold afterPad; split <;> simp

@[simp] theorem afterPad_pos (p : Byte) (k : Nat) : (afterPad s p k).pos = s.pos := by
  unfold afterPad; split <;> simp

@[simp] theorem afterPad_events (p : Byte) (k : Nat) : (afterPad s p k).events = s.events := by
  unfold afterPad; split <;> simp

/-! `appendGlyph` -/

@[simp] theorem appendGlyph_mode (u : Bool) (g : Glyph) : (appendGlyph s u g).mode = s.mode := by
  simp [appendGlyph, Glyph.columns]

@[simp] theorem appendGlyph_rem (u : Bool) (g : Glyph) : (appendGlyph s u g).rem = s.rem := by
  simp [appendGlyph, Glyph.columns]

@[simp] theorem appendGlyph_dw (u : Bool) (g : Glyph) : (appendGlyph s u g).dw = s.dw := by
  simp [appendGlyph, Glyph.columns]

@[simp] theorem appendGlyph_ul (u : Bool) (g : Glyph) : (appendGlyph s u g).ul = s.ul := by
  simp [appendGlyph, Glyph.columns]

@[simp] theorem appendGlyph_alt (u : Bool) (g : Glyph) : (appendGlyph s u g).alt = s.alt := by
  simp [appendGlyph, Glyph.columns]

@[simp] theorem appendGlyph_text (u : Bool) (g : Glyph) : (appendGlyph s u g).text = s.text := by
  simp [appendGlyph, Glyph.columns]

@[simp] theorem appendGlyph_cfg (u : Bool) (g : Glyph) : (appendGlyph s u g).cfg = s.cfg := by
  simp [appendGlyph, Glyph.columns]

@[simp] theorem appendGlyph_input (u : Bool) (g : Glyph) : (appendGlyph s u g).input = s.input := by
  simp [appendGlyph, Glyph.columns]

@[simp] theorem appendGlyph_pos (u : Bool) (g : Glyph) : (appendGlyph s u g).pos = s.pos := by
  simp [appendGlyph, Glyph.columns]

@[simp] theorem appendGlyph_events (u : Bool) (g : Glyph) : (appendGlyph s u g).events = s.events := by
  simp [appendGlyph, Glyph.columns]

/-! `placeGlyph` -/

@[simp] theorem placeGlyph_mode (g : Glyph) : (placeGlyph s g).mode = s.mode := by
  unfold placeGlyph; simp only [afterPad_mode, appendGlyph_mode]; repeat' split
  all_goals simp

@[simp] theorem placeGlyph_rem (g : Glyph) : (placeGlyph s g).rem = s.rem := by
  unfold placeGlyph; simp only [afterPad_rem, appendGlyph_rem]; repeat' split
  all_goals simp

@[simp] theorem placeGlyph_dw (g : Glyph) : (placeGlyph s g).dw = s.dw := by
  unfold placeGlyph; simp only [afterPad_dw, appendGlyph_dw]; repeat' split
  all_goals simp

@[simp] theorem placeGlyph_ul (g : Glyph) : (placeGlyph s g).ul = s.ul := by
  unfold placeGlyph; simp only [afterPad_ul, appendGlyph_ul]; repeat' split
  all_goals simp

@[simp] theorem placeGlyph_alt (g : Glyph) : (placeGlyph s g).alt = s.alt := by
  unfold placeGlyph; simp only [afterPad_alt, appendGlyph_alt]; repeat' split
  all_goals simp

@[simp] theorem placeGlyph_cfg (g : Glyph) : (placeGlyph s g).cfg = s.cfg := by
  unfold placeGlyph; simp only [afterPad_cfg, appendGlyph_cfg]; repeat' split
  all_goals simp

@[simp] theorem placeGlyph_input (g : Glyph) : (placeGlyph s g).input = s.input := by
  unfold placeGlyph; simp only [afterPad_input, appendGlyph_input]; repeat' split
  all_goals simp

@[simp] theorem placeGlyph_pos (g : Glyph) : (placeGlyph s g).pos = s.pos := by
  unfold placeGlyph; simp only [afterPad_pos, appendGlyph_pos]; repeat' split
  all_goals simp

/-! `printChar` -/

@[simp] theorem printChar_mode (b : Byte) : (printChar s b).mode = s.mode := by
  unfold printChar; split <;> simp

@[simp] theorem printChar_rem (b : Byte) : (printChar s b).rem = s.rem := by
  unfold printChar; split <;> simp

@[simp] theorem printChar_dw (b : Byte) : (printChar s b).dw = s.dw := by
  unfold printChar; split <;> simp

@[simp] theorem printChar_ul (b : Byte) : (printChar s b).ul = s.ul := by
  unfold printChar; split <;> simp

@[simp] theorem printChar_alt (b : Byte) : (printChar s b).alt = s.alt := by
  unfold printChar; split <;> simp

@[simp] theorem printChar_cfg (b : Byte) : (printChar s b).cfg = s.cfg := by
  unfold printChar; split <;> simp

@[simp] theorem printChar_input (b : Byte) : (printChar s b).input = s.input := by
  unfold printChar; split <;> simp

@[simp] theorem printChar_pos (b : Byte) : (printChar s b).pos = s.pos := by
  unfold printChar; split <;> simp

/-! `runOp` -/

@[simp] theorem runOp_mode (o : SelfTestOp) : (runOp s o).mode = s.mode := by
  cases o <;> simp [runOp]

@[simp] theorem runOp_rem (o : SelfTestOp) : (runOp s o).rem = s.rem := by
  cases o <;> simp [runOp]

@[simp] theorem runOp_dw (o : SelfTestOp) : (runOp s o).dw = s.dw := by
  cases o <;> simp [runOp]

@[simp] theorem runOp_ul (o : SelfTestOp) : (runOp s o).ul = s.ul := by
  cases o <;> simp [runOp]

@[simp] theorem runOp_alt (o : SelfTestOp) : (runOp s o).alt = s.alt := by
  cases o <;> simp [runOp]

@[simp] theorem runOp_cfg (o : SelfTestOp) : (runOp s o).cfg = s.cfg := by
  cases o <;> simp [runOp]

@[simp] theorem runOp_input (o : SelfTestOp) : (runOp s o).input = s.input := by
  cases o <;> simp [runOp]

@[simp] theorem runOp_pos (o : SelfTestOp) : (runOp s o).pos = s.pos := by
  cases o <;> simp [runOp]

/-- A field that one operation of a fold leaves alone is left alone by the fold. -/
theorem foldl_field {α β : Type} (p : State → β) (f : State → α → State) (hf : ∀ t a, p (f t a) = p t) (l : List α) :
    ∀ t, p (l.foldl f t) = p t := by
  induction l with
  | nil => intro t; rfl
  | cons a l ih => intro t; rw [List.foldl_cons, ih, hf]

@[simp] theorem runOps_mode (l : List SelfTestOp) : (runOps s l).mode = s.mode :=
  foldl_field State.mode runOp (fun t a => runOp_mode t a) l s

@[simp] theorem runOps_rem (l : List SelfTestOp) : (runOps s l).rem = s.rem :=
  foldl_field State.rem runOp (fun t a => runOp_rem t a) l s

@[simp] theorem runOps_dw (l : List SelfTestOp) : (runOps s l).dw = s.dw :=
  foldl_field State.dw runOp (fun t a => runOp_dw t a) l s

@[simp] theorem runOps_ul (l : List SelfTestOp) : (runOps s l).ul = s.ul :=
  foldl_field State.ul runOp (fun t a => runOp_ul t a) l s

@[simp] theorem runOps_alt (l : List SelfTestOp) : (runOps s l).alt = s.alt :=
  foldl_field State.alt runOp (fun t a => runOp_alt t a) l s

@[simp] theorem runOps_cfg (l : List SelfTestOp) : (runOps s l).cfg = s.cfg :=
  foldl_field State.cfg runOp (fun t a => runOp_cfg t a) l s

@[simp] theorem runOps_input (l : List SelfTestOp) : (runOps s l).input = s.input :=
  foldl_field State.input runOp (fun t a => runOp_input t a) l s

@[simp] theorem runOps_pos (l : List SelfTestOp) : (runOps s l).pos = s.pos :=
  foldl_field State.pos runOp (fun t a => runOp_pos t a) l s

/-! `selfTestChar` -/

@[simp] theorem selfTestChar_mode (i : Nat) : (selfTestChar s i).mode = s.mode := by
  unfold selfTestChar; simp only; split <;> simp

@[simp] theorem selfTestChar_rem (i : Nat) : (selfTestChar s i).rem = s.rem := by
  unfold selfTestChar; simp only; split <;> simp

@[simp] theorem selfTestChar_dw (i : Nat) : (selfTestChar s i).dw = s.dw := by
  unfold selfTestChar; simp only; split <;> simp

@[simp] theorem selfTestChar_ul (i : Nat) : (selfTestChar s i).ul = s.ul := by
  unfold selfTestChar; simp only; split <;> simp

@[simp] theorem selfTestChar_alt (i : Nat) : (selfTestChar s i).alt = s.alt := by
  unfold selfTestChar; simp only; split <;> simp

@[simp] theorem selfTestChar_cfg (i : Nat) : (selfTestChar s i).cfg = s.cfg := by
  unfold selfTestChar; simp only; split <;> simp

@[simp] theorem selfTestChar_input (i : Nat) : (selfTestChar s i).input = s.input := by
  unfold selfTestChar; simp only; split <;> simp

@[simp] theorem selfTestChar_pos (i : Nat) : (selfTestChar s i).pos = s.pos := by
  unfold selfTestChar; simp only; split <;> simp

@[simp] theorem selfTestChars_mode : (selfTestChars s).mode = s.mode :=
  foldl_field State.mode selfTestChar (fun t a => selfTestChar_mode t a) _ s

@[simp] theorem selfTestChars_rem : (selfTestChars s).rem = s.rem :=
  foldl_field State.rem selfTestChar (fun t a => selfTestChar_rem t a) _ s

@[simp] theorem selfTestChars_dw : (selfTestChars s).dw = s.dw :=
  foldl_field State.dw selfTestChar (fun t a => selfTestChar_dw t a) _ s

@[simp] theorem selfTestChars_ul : (selfTestChars s).ul = s.ul :=
  foldl_field State.ul selfTestChar (fun t a => selfTestChar_ul t a) _ s

@[simp] theorem selfTestChars_alt : (selfTestChars s).alt = s.alt :=
  foldl_field State.alt selfTestChar (fun t a => selfTestChar_alt t a) _ s

@[simp] theorem selfTestChars_cfg : (selfTestChars s).cfg = s.cfg :=
  foldl_field State.cfg selfTestChar (fun t a => selfTestChar_cfg t a) _ s

@[simp] theorem selfTestChars_input : (selfTestChars s).input = s.input :=
  foldl_field State.input selfTestChar (fun t a => selfTestChar_input t a) _ s

@[simp] theorem selfTestChars_pos : (selfTestChars s).pos = s.pos :=
  foldl_field State.pos selfTestChar (fun t a => selfTestChar_pos t a) _ s

/-! `selfTestSequence` -/

@[simp] theorem selfTestSequence_mode : (selfTestSequence s).mode = s.mode := by
  simp [selfTestSequence]

@[simp] theorem selfTestSequence_rem : (selfTestSequence s).rem = s.rem := by
  simp [selfTestSequence]

@[simp] theorem selfTestSequence_dw : (selfTestSequence s).dw = s.dw := by
  simp [selfTestSequence]

@[simp] theorem selfTestSequence_ul : (selfTestSequence s).ul = s.ul := by
  simp [selfTestSequence]

@[simp] theorem selfTestSequence_alt : (selfTestSequence s).alt = s.alt := by
  simp [selfTestSequence]

@[simp] theorem selfTestSequence_cfg : (selfTestSequence s).cfg = s.cfg := by
  simp [selfTestSequence]

@[simp] theorem selfTestSequence_input : (selfTestSequence s).input = s.input := by
  simp [selfTestSequence]

@[simp] theorem selfTestSequence_pos : (selfTestSequence s).pos = s.pos := by
  simp [selfTestSequence]

/-! `duplicateRoom` -/

@[simp] theorem duplicateRoom_mode : (duplicateRoom s).mode = s.mode := by
  unfold duplicateRoom; split <;> simp

@[simp] theorem duplicateRoom_rem : (duplicateRoom s).rem = s.rem := by
  unfold duplicateRoom; split <;> simp

@[simp] theorem duplicateRoom_dw : (duplicateRoom s).dw = s.dw := by
  unfold duplicateRoom; split <;> simp

@[simp] theorem duplicateRoom_ul : (duplicateRoom s).ul = s.ul := by
  unfold duplicateRoom; split <;> simp

@[simp] theorem duplicateRoom_alt : (duplicateRoom s).alt = s.alt := by
  unfold duplicateRoom; split <;> simp

@[simp] theorem duplicateRoom_cfg : (duplicateRoom s).cfg = s.cfg := by
  unfold duplicateRoom; split <;> simp

@[simp] theorem duplicateRoom_input : (duplicateRoom s).input = s.input := by
  unfold duplicateRoom; split <;> simp

@[simp] theorem duplicateRoom_pos : (duplicateRoom s).pos = s.pos := by
  unfold duplicateRoom; split <;> simp

/-! `drawPayload` -/

@[simp] theorem drawPayload_mode (b : Byte) : (drawPayload s b).mode = s.mode := by
  unfold drawPayload; simp only; repeat' split
  all_goals simp

@[simp] theorem drawPayload_rem (b : Byte) : (drawPayload s b).rem = s.rem := by
  unfold drawPayload; simp only; repeat' split
  all_goals simp

@[simp] theorem drawPayload_dw (b : Byte) : (drawPayload s b).dw = s.dw := by
  unfold drawPayload; simp only; repeat' split
  all_goals simp

@[simp] theorem drawPayload_ul (b : Byte) : (drawPayload s b).ul = s.ul := by
  unfold drawPayload; simp only; repeat' split
  all_goals simp

@[simp] theorem drawPayload_alt (b : Byte) : (drawPayload s b).alt = s.alt := by
  unfold drawPayload; simp only; repeat' split
  all_goals simp

@[simp] theorem drawPayload_cfg (b : Byte) : (drawPayload s b).cfg = s.cfg := by
  unfold drawPayload; simp only; repeat' split
  all_goals simp

@[simp] theorem drawPayload_input (b : Byte) : (drawPayload s b).input = s.input := by
  unfold drawPayload; simp only; repeat' split
  all_goals simp

@[simp] theorem drawPayload_pos (b : Byte) : (drawPayload s b).pos = s.pos := by
  unfold drawPayload; simp only; repeat' split
  all_goals simp

/-! `zeroCount` -/

@[simp] theorem zeroCount_dw : (zeroCount s).dw = s.dw := by
  unfold zeroCount; split <;> rfl

@[simp] theorem zeroCount_ul : (zeroCount s).ul = s.ul := by
  unfold zeroCount; split <;> rfl

@[simp] theorem zeroCount_alt : (zeroCount s).alt = s.alt := by
  unfold zeroCount; split <;> rfl

@[simp] theorem zeroCount_col : (zeroCount s).col = s.col := by
  unfold zeroCount; split <;> rfl

@[simp] theorem zeroCount_page : (zeroCount s).page = s.page := by
  unfold zeroCount; split <;> rfl

@[simp] theorem zeroCount_text : (zeroCount s).text = s.text := by
  unfold zeroCount; split <;> rfl

@[simp] theorem zeroCount_cfg : (zeroCount s).cfg = s.cfg := by
  unfold zeroCount; split <;> rfl

@[simp] theorem zeroCount_input : (zeroCount s).input = s.input := by
  unfold zeroCount; split <;> rfl

@[simp] theorem zeroCount_pos : (zeroCount s).pos = s.pos := by
  unfold zeroCount; split <;> rfl

@[simp] theorem zeroCount_events : (zeroCount s).events = s.events := by
  unfold zeroCount; split <;> rfl

/-! `countDown` -/

@[simp] theorem countDown_dw : (countDown s).dw = s.dw := by
  unfold countDown; simp only; repeat' split
  all_goals simp

@[simp] theorem countDown_ul : (countDown s).ul = s.ul := by
  unfold countDown; simp only; repeat' split
  all_goals simp

@[simp] theorem countDown_alt : (countDown s).alt = s.alt := by
  unfold countDown; simp only; repeat' split
  all_goals simp

@[simp] theorem countDown_col : (countDown s).col = s.col := by
  unfold countDown; simp only; repeat' split
  all_goals simp

@[simp] theorem countDown_page : (countDown s).page = s.page := by
  unfold countDown; simp only; repeat' split
  all_goals simp

@[simp] theorem countDown_text : (countDown s).text = s.text := by
  unfold countDown; simp only; repeat' split
  all_goals simp

@[simp] theorem countDown_cfg : (countDown s).cfg = s.cfg := by
  unfold countDown; simp only; repeat' split
  all_goals simp

@[simp] theorem countDown_input : (countDown s).input = s.input := by
  unfold countDown; simp only; repeat' split
  all_goals simp

@[simp] theorem countDown_pos : (countDown s).pos = s.pos := by
  unfold countDown; simp only; repeat' split
  all_goals simp

@[simp] theorem countDown_events : (countDown s).events = s.events := by
  unfold countDown; simp only; repeat' split
  all_goals simp

/-! `checkLength` -/

@[simp] theorem checkLength_mode (n : Byte) : (checkLength s n).mode = s.mode := by
  unfold checkLength; split <;> simp

@[simp] theorem checkLength_rem (n : Byte) : (checkLength s n).rem = s.rem := by
  unfold checkLength; split <;> simp

@[simp] theorem checkLength_dw (n : Byte) : (checkLength s n).dw = s.dw := by
  unfold checkLength; split <;> simp

@[simp] theorem checkLength_ul (n : Byte) : (checkLength s n).ul = s.ul := by
  unfold checkLength; split <;> simp

@[simp] theorem checkLength_alt (n : Byte) : (checkLength s n).alt = s.alt := by
  unfold checkLength; split <;> simp

@[simp] theorem checkLength_col (n : Byte) : (checkLength s n).col = s.col := by
  unfold checkLength; split <;> simp

@[simp] theorem checkLength_page (n : Byte) : (checkLength s n).page = s.page := by
  unfold checkLength; split <;> simp

@[simp] theorem checkLength_text (n : Byte) : (checkLength s n).text = s.text := by
  unfold checkLength; split <;> simp

@[simp] theorem checkLength_cfg (n : Byte) : (checkLength s n).cfg = s.cfg := by
  unfold checkLength; split <;> simp

@[simp] theorem checkLength_input (n : Byte) : (checkLength s n).input = s.input := by
  unfold checkLength; split <;> simp

@[simp] theorem checkLength_pos (n : Byte) : (checkLength s n).pos = s.pos := by
  unfold checkLength; split <;> simp


/-! ### The column -/

/-- PutCol advances the column by one and stops at 166 (R26, R70). -/
theorem putCol_col (v : Byte) : (putCol s v).col.val = min (s.col.val + 1) pageWidth := by
  unfold putCol
  split
  · rename_i h
    exact (Nat.min_eq_left h).symm
  · rename_i h
    have := s.col.isLt
    simp only [pageWidth] at *
    omega

theorem appendCol_col (v : Byte) : (appendCol s v).col.val = min (s.col.val + glyphWidth s) pageWidth := by
  unfold appendCol glyphWidth
  have := s.col.isLt
  simp only [putCol_dw]
  split
  · simp only [putCol_col, pageWidth]
    omega
  · simp only [putCol_col, pageWidth]

theorem padCol_col (p : Byte) (k : Nat) :
    (padCol s p k).col.val = min (s.col.val + if k = 2 then 2 else 1) pageWidth := by
  unfold padCol
  have := s.col.isLt
  simp only
  split
  · simp only [putCol_col, pageWidth]
    omega
  · simp only [putCol_col, pageWidth]

@[simp] theorem glyphWidth_appendCol (v : Byte) : glyphWidth (appendCol s v) = glyphWidth s := by
  simp [glyphWidth]

theorem glyphWidth_cases : glyphWidth s = 1 ∨ glyphWidth s = 2 := by
  unfold glyphWidth
  split <;> simp

theorem padWidth_cases : padWidth s = 1 ∨ padWidth s = 2 := by
  unfold padWidth
  split
  · exact glyphWidth_cases s
  · exact .inl rfl

/-- A glyph takes five glyph columns, doubled in double width (R243). -/
theorem appendGlyph_col (u : Bool) (g : Glyph) :
    (appendGlyph s u g).col.val = min (s.col.val + 5 * glyphWidth s) pageWidth := by
  have := s.col.isLt
  simp only [appendGlyph, Glyph.columns, List.foldl_cons, List.foldl_nil, appendCol_col, glyphWidth_appendCol, pageWidth]
  rcases glyphWidth_cases s with h | h <;> rw [h] <;> omega

/-! ### The page -/

/-- PutCol writes the current column, where there is one, and no other (R70, R71). -/
theorem putCol_read (h : s.page.wf = true) (v : Byte) (c : Nat) :
    (putCol s v).page.read c =
      if c = s.col.val ∧ s.col.val < pageWidth then storedColumn s.cfg.columnWrite (s.page.read c) v
      else s.page.read c := by
  unfold putCol
  split
  · rename_i hr
    simp only [memWrite_page]
    by_cases hc : c = s.col.val
    · subst hc
      simp only [hr, and_self, if_true, Memory.read_write_same h]
    · rw [Memory.read_write_other h _ hc, if_neg (fun x => hc x.1)]
  · rename_i hr
    rw [if_neg (fun x => hr x.2)]

/-- PutCol keeps the page canonical. -/
theorem putCol_wf {s : State} (h : s.page.wf = true) (v : Byte) : (putCol s v).page.wf = true := by
  unfold putCol
  split
  · rename_i hr
    exact Memory.wf_write h _ hr
  · exact h

/-- What PutCol and Flush keep, the other drawing operations keep: the one induction over the assembler. -/
structure KeptByDrawing (P : State → Prop) : Prop where
  putCol : ∀ s v, P s → P (putCol s v)
  flush : ∀ s, P s → P (flush s)
  warn : ∀ s c i, P s → P (raiseWarn s c i)
  text : ∀ s cp, P s → P (appendText s cp)

section Kept

variable {P : State → Prop} (k : KeptByDrawing P) {s : State}

theorem KeptByDrawing.appendCol (k : KeptByDrawing P) (v : Byte) (h : P s) : P (appendCol s v) := by
  unfold Machine.appendCol
  simp only
  split
  · exact k.putCol _ _ (k.putCol _ _ h)
  · exact k.putCol _ _ h

theorem KeptByDrawing.padCol (k : KeptByDrawing P) (p : Byte) (w : Nat) (h : P s) : P (padCol s p w) := by
  unfold Machine.padCol
  simp only
  split
  · exact k.putCol _ _ (k.putCol _ _ h)
  · exact k.putCol _ _ h

theorem KeptByDrawing.afterPad (k : KeptByDrawing P) (p : Byte) (w : Nat) (h : P s) : P (afterPad s p w) := by
  unfold Machine.afterPad
  split
  · exact k.padCol p w h
  · exact h

theorem KeptByDrawing.appendGlyph (k : KeptByDrawing P) (u : Bool) (g : Glyph) (h : P s) : P (appendGlyph s u g) := by
  simp only [Machine.appendGlyph, Glyph.columns, List.foldl_cons, List.foldl_nil]
  exact k.appendCol _ (k.appendCol _ (k.appendCol _ (k.appendCol _ (k.appendCol _ h))))

theorem KeptByDrawing.placeGlyph (k : KeptByDrawing P) (g : Glyph) (h : P s) : P (placeGlyph s g) := by
  unfold Machine.placeGlyph
  refine k.afterPad _ _ (k.appendGlyph _ _ ?_)
  have h1 : P (if wraps s = true then Machine.flush s else s) := by
    split
    · exact k.flush s h
    · exact h
  split
  · exact h1
  · exact k.padCol _ _ h1

theorem KeptByDrawing.printChar (k : KeptByDrawing P) (b : Byte) (h : P s) : P (printChar s b) := by
  unfold Machine.printChar
  split
  · exact k.warn _ _ _ h
  · exact k.text _ _ (k.placeGlyph _ h)

theorem KeptByDrawing.runOps (k : KeptByDrawing P) (l : List SelfTestOp) : ∀ {s}, P s → P (runOps s l) := by
  induction l with
  | nil => intro s h; exact h
  | cons o l ih =>
    intro s h
    refine ih (s := runOp s o) ?_
    cases o with
    | char b => exact k.printChar b h
    | col v => exact k.appendCol v h

theorem KeptByDrawing.selfTestChars (k : KeptByDrawing P) (h : P s) : P (selfTestChars s) := by
  unfold Machine.selfTestChars
  generalize List.range 223 = l
  induction l generalizing s with
  | nil => exact h
  | cons i l ih =>
    refine ih ?_
    unfold Machine.selfTestChar
    simp only
    split
    · exact k.flush _ (k.printChar _ h)
    · exact k.printChar _ h

theorem KeptByDrawing.selfTestSequence (k : KeptByDrawing P) (h : P s) : P (selfTestSequence s) := by
  unfold Machine.selfTestSequence
  exact k.flush _ (k.flush _ (k.runOps _ (k.flush _ (k.flush _ (k.runOps _ (k.selfTestChars (k.flush _ h)))))))

theorem KeptByDrawing.forcedFlush (k : KeptByDrawing P) (h : P s) : P (forcedFlush s) := k.flush _ (k.warn _ _ _ h)

theorem KeptByDrawing.drawPayload (k : KeptByDrawing P) (b : Byte) (h : P s) : P (drawPayload s b) := by
  have h0 : P (if lineFull s = true then Machine.forcedFlush s else s) := by
    split
    · exact k.forcedFlush h
    · exact h
  unfold Machine.drawPayload
  generalize (if lineFull s = true then Machine.forcedFlush s else s) = s0 at h0
  simp only
  split
  · refine k.putCol _ _ ?_
    unfold duplicateRoom
    split
    · exact k.forcedFlush (k.putCol _ _ h0)
    · exact k.putCol _ _ h0
  · exact k.putCol _ _ h0

end Kept

/-- The canonical form of the page is kept by every drawing operation. -/
theorem wf_kept : KeptByDrawing fun s => s.page.wf = true where
  putCol _ v h := putCol_wf h v
  flush _ _ := rfl
  warn _ _ _ h := h
  text _ _ h := h

end Sys2Proof.Machine
end

