-- ==== Sys2Proof/Laws/Columns.lean ====
section
/-! SUPPORT. A run of columns put one after the other: what AppendCol, PadCol and a glyph are in terms of PutCol, and where
the run stands on the page. -/

namespace Sys2Proof.Machine

open Sys2Proof

/-- The columns `vs` put one after the other. -/
def putCols (s : State) (vs : List Byte) : State := vs.foldl putCol s

@[simp] theorem putCols_nil (s : State) : putCols s [] = s := rfl

theorem putCols_cons (s : State) (v : Byte) (vs : List Byte) : putCols s (v :: vs) = putCols (putCol s v) vs := rfl

theorem putCols_append (s : State) (vs ws : List Byte) : putCols s (vs ++ ws) = putCols (putCols s vs) ws :=
  List.foldl_append

/-- A field that PutCol leaves alone is left alone by a run. -/
theorem putCols_field {β : Type} (p : State → β) (hp : ∀ t v, p (putCol t v) = p t) (s : State) (vs : List Byte) :
    p (putCols s vs) = p s :=
  foldl_field p putCol hp vs s

@[simp] theorem putCols_cfg (s : State) (vs : List Byte) : (putCols s vs).cfg = s.cfg :=
  putCols_field State.cfg (fun t v => putCol_cfg t v) s vs

@[simp] theorem putCols_dw (s : State) (vs : List Byte) : (putCols s vs).dw = s.dw :=
  putCols_field State.dw (fun t v => putCol_dw t v) s vs

/-- A run advances the column by its length and stops at 166. -/
theorem putCols_col (vs : List Byte) : ∀ s : State, (putCols s vs).col.val = min (s.col.val + vs.length) pageWidth := by
  induction vs with
  | nil =>
    intro s
    have := s.col.isLt
    simp only [putCols_nil, List.length_nil, pageWidth]
    omega
  | cons v vs ih =>
    intro s
    rw [putCols_cons, ih, putCol_col]
    simp only [List.length_cons, pageWidth]
    omega

/-- A run keeps the page canonical. -/
theorem putCols_wf (vs : List Byte) : ∀ {s : State}, s.page.wf = true → (putCols s vs).page.wf = true := by
  induction vs with
  | nil => intro s h; exact h
  | cons v vs ih => intro s h; exact ih (putCol_wf h v)

/-- A run writes the columns from the current one on, in order, up to column 165, and no other. -/
theorem putCols_read (vs : List Byte) : ∀ {s : State}, s.page.wf = true → ∀ c,
    (putCols s vs).page.read c =
      if s.col.val ≤ c ∧ c < s.col.val + vs.length ∧ c < pageWidth then
        storedColumn s.cfg.columnWrite (s.page.read c) (vs.getD (c - s.col.val) 0#8)
      else s.page.read c := by
  induction vs with
  | nil =>
    intro s _ c
    rw [if_neg (by simp only [List.length_nil]; omega)]
    rfl
  | cons v vs ih =>
    intro s h c
    have hlt := s.col.isLt
    rw [putCols_cons, ih (putCol_wf h v), putCol_read s h, putCol_cfg, putCol_col]
    simp only [List.length_cons, pageWidth] at *
    by_cases hc : c = s.col.val
    · subst hc
      by_cases hf : s.col.val < 166
      · rw [if_neg (by omega), if_pos ⟨rfl, hf⟩, if_pos ⟨Nat.le_refl _, by omega, hf⟩, Nat.sub_self]
        rfl
      · rw [if_neg (by omega), if_neg (by omega), if_neg (by omega)]
    · simp only [hc, false_and, if_false]
      by_cases hr : s.col.val ≤ c ∧ c < s.col.val + (vs.length + 1) ∧ c < 166
      · rw [if_pos (by omega), if_pos hr, Nat.min_eq_left (by omega)]
        congr 1
        obtain ⟨d, rfl⟩ : ∃ d, c = s.col.val + 1 + d := ⟨c - (s.col.val + 1), by omega⟩
        rw [Nat.add_sub_cancel_left, show s.col.val + 1 + d - s.col.val = d + 1 by omega, List.getD_cons_succ]
      · rw [if_neg (by omega), if_neg hr]

/-- AppendCol as a run. -/
theorem appendCol_eq_putCols (s : State) (v : Byte) : appendCol s v = putCols s (List.replicate (glyphWidth s) v) := by
  unfold appendCol glyphWidth
  simp only [putCol_dw]
  split <;> rfl

/-- PadCol as a run. -/
theorem padCol_eq_putCols (s : State) (p : Byte) (k : Nat) :
    padCol s p k = putCols s (List.replicate (if k = 2 then 2 else 1) p) := by
  unfold padCol
  simp only
  split <;> rfl

/-- The columns of a glyph as they are put: each with the underline bit, `k` times. -/
def glyphRun (ul : Bool) (k : Nat) (g : Glyph) : List Byte :=
  g.columns.flatMap fun v => List.replicate k (columnValue ul v)

/-- A glyph as a run. -/
theorem appendGlyph_eq_putCols (s : State) (ul : Bool) (g : Glyph) :
    appendGlyph s ul g = putCols s (glyphRun ul (glyphWidth s) g) := by
  simp only [appendGlyph, glyphRun, Glyph.columns, List.foldl_cons, List.foldl_nil, List.flatMap_cons, List.flatMap_nil,
    List.append_nil, appendCol_eq_putCols, putCols_append]
  have hw : ∀ (t : State) (vs : List Byte), glyphWidth (putCols t vs) = glyphWidth t := by
    intro t vs
    simp [glyphWidth]
  simp only [hw]

theorem glyphRun_length (ul : Bool) (k : Nat) (g : Glyph) : (glyphRun ul k g).length = 5 * k := by
  simp [glyphRun, Glyph.columns]
  omega

/-- Column `i` of a glyph's run is its column `i / k`. -/
theorem glyphRun_getD (ul : Bool) {k : Nat} (hk : k = 1 ∨ k = 2) (g : Glyph) {i : Nat} (hi : i < 5 * k) :
    (glyphRun ul k g).getD i 0#8 = columnValue ul (g.columns.getD (i / k) 0#8) := by
  rcases hk with rfl | rfl
  · have h5 : i = 0 ∨ i = 1 ∨ i = 2 ∨ i = 3 ∨ i = 4 := by omega
    rcases h5 with rfl | rfl | rfl | rfl | rfl <;> rfl
  · have h10 : i = 0 ∨ i = 1 ∨ i = 2 ∨ i = 3 ∨ i = 4 ∨ i = 5 ∨ i = 6 ∨ i = 7 ∨ i = 8 ∨ i = 9 := by omega
    rcases h10 with rfl | rfl | rfl | rfl | rfl | rfl | rfl | rfl | rfl | rfl <;> rfl

/-! ### A glyph on its line -/

/-- After a flush any character is the first of its line, under both tests of R249. -/
theorem isFirst_flush (s : State) : isFirst (flush s) = true := by
  unfold isFirst
  rw [flush_cfg, flush_col, flush_text]
  cases s.cfg.firstTest <;> rfl

/-- On a fresh line a character always fits (R243). -/
theorem wraps_flush (s : State) : wraps (flush s) = false := by
  refine decide_eq_false ?_
  unfold neededColumns leadWidth
  rw [isFirst_flush, flush_col]
  have h0 : ((0 : Fin 167) : Nat) = 0 := rfl
  rcases glyphWidth_cases (flush s) with h | h <;> rw [h, h0, if_pos rfl] <;> decide

theorem glyphWidth_flush (s : State) : glyphWidth (flush s) = glyphWidth s := rfl

theorem padWidth_flush (s : State) : padWidth (flush s) = padWidth s := rfl

/-- A glyph that does not fit is placed as on the fresh line after a flush (R243). -/
theorem placeGlyph_of_wraps {s : State} (h : wraps s = true) (g : Glyph) : placeGlyph s g = placeGlyph (flush s) g := by
  unfold placeGlyph
  rw [wraps_flush, isFirst_flush, padWidth_flush, flush_ul, h]
  simp only [Bool.true_or, Bool.or_true, if_true, Bool.false_eq_true, if_false]

/-- A glyph that fits is one run of columns, the padding before it among them, and then the padding after it (R243). -/
theorem placeGlyph_of_fits {s : State} (h : wraps s = false) (g : Glyph) :
    placeGlyph s g =
      afterPad (putCols s (List.replicate (leadWidth s) (padValue s.ul) ++ glyphRun s.ul (glyphWidth s) g))
        (padValue s.ul) (padWidth s) := by
  have hk : (if padWidth s = 2 then 2 else 1) = padWidth s := by
    rcases padWidth_cases s with h | h <;> rw [h] <;> rfl
  have hw : ∀ vs, glyphWidth (putCols s vs) = glyphWidth s := fun vs => by simp [glyphWidth]
  unfold placeGlyph leadWidth
  rw [h]
  simp only [Bool.false_or, Bool.false_eq_true, if_false, appendGlyph_eq_putCols, putCols_append]
  by_cases h1 : isFirst s = true
  · simp only [h1, if_true, List.replicate_zero, putCols_nil]
  · simp only [h1, Bool.false_eq_true, if_false, padCol_eq_putCols, hk, hw]

end Sys2Proof.Machine
end

