-- ==== Sys2Proof/Laws/Dispatch.lean ====
section
/-! SUPPORT. exec on each instruction as the shared operation it is, and the inversion of one step. -/

namespace Sys2Proof.Machine

open Sys2Proof

variable (s : State)

@[simp] theorem exec_escIntro : exec .escIntro s = .next (setMode s .escapePending) := rfl

@[simp] theorem exec_lf : exec .lf s = .next (flush s) := rfl

@[simp] theorem exec_eol : exec .eol s = .next (flush s) := rfl

@[simp] theorem exec_char (b : Byte) : exec (.char b) s = .next (printChar s b) := rfl

@[simp] theorem exec_reset : exec .reset s = .next (doReset s) := rfl

@[simp] theorem exec_selfTest : exec .selfTest s = .next (doSelfTest s) := rfl

@[simp] theorem exec_startDoubleWide : exec .startDoubleWide s = .next (setMode (setDw s true) .text) := rfl

@[simp] theorem exec_stopDoubleWide : exec .stopDoubleWide s = .next (setMode (setDw s false) .text) := rfl

@[simp] theorem exec_startUnderline : exec .startUnderline s = .next (setMode (setUl s true) .text) := rfl

@[simp] theorem exec_stopUnderline : exec .stopUnderline s = .next (setMode (setUl s false) .text) := rfl

@[simp] theorem exec_startAltCharset : exec .startAltCharset s = .next (setMode (setAlt s true) .text) := rfl

@[simp] theorem exec_stopAltCharset : exec .stopAltCharset s = .next (setMode (setAlt s false) .text) := rfl

@[simp] theorem exec_gfxColumn (p : Byte) : exec (.gfxColumn p) s = .next (countDown (drawPayload s p)) := rfl

/-- GRAPHICS_MODE with a length that Resolve can produce runs the header. -/
theorem exec_graphicsMode {n : Byte} (h : n.toNat < 0xF8) : exec (.graphicsMode n) s = .next (graphicsHeader s n) :=
  if_pos (decide_eq_true h)

/-- exec answers a next state on every instruction but a header whose operand no byte encodes. -/
theorem exec_answers {i : Instr} (h : i.wf = true) : ∃ t, exec i s = .next t := by
  cases i with
  | graphicsMode n => exact ⟨_, exec_graphicsMode s (of_decide_eq_true h)⟩
  | _ => exact ⟨_, rfl⟩

/-- What a decoded byte is in ESCAPE_PENDING is never a TEXT or GRAPHICS instruction, and a header's length is at most 247. -/
theorem resolve_wf (e : EscMap) (c : Byte) : (resolve e c).toInstr.wf = true := by
  have hk : ∀ k : OpenCode, k.toEscape.toInstr.wf = true := by intro k; cases k <;> rfl
  by_cases hr : isReserved c = true
  · rw [resolve, if_pos hr]
    unfold escMapInv
    repeat' split
    all_goals first | rfl | exact hk _
  · rw [resolve, if_neg hr]
    unfold isReserved at hr
    have hr' := of_decide_eq_false (Bool.eq_false_iff.mpr hr)
    exact decide_eq_true (by omega)

/-- A step that answers a next state took one byte and ran the instruction that this byte is in the mode it arrived in. -/
theorem step_next {s t : State} (h : step s = .next t) :
    ∃ b rest, s.input = b :: rest ∧ exec (decode s.cfg.escMap s.mode b) (takeByte s rest) = .next t := by
  unfold step fetch at h
  cases hi : s.input with
  | nil => rw [hi] at h; cases h
  | cons b rest =>
    rw [hi] at h
    exact ⟨b, rest, rfl, h⟩

/-- The length check adds at most its one warning (R180). -/
theorem checkLength_events (n : Byte) :
    (checkLength s n).events = s.events ++ if lengthInvalid n then [.warn .gfxLength n] else [] := by
  unfold checkLength
  split <;> simp

/-- DoSelfTest as one record update around the events of the sequence (R172, R222). -/
theorem doSelfTest_eq :
    doSelfTest s =
      { s with
        mode := .text, rem := 0#8, dw := false, ul := false, alt := false, col := 0, page := [], text := []
        events := (selfTestSequence (doReset s)).events } := by
  have hm := selfTestSequence_mode (doReset s)
  have hr := selfTestSequence_rem (doReset s)
  have hd := selfTestSequence_dw (doReset s)
  have hu := selfTestSequence_ul (doReset s)
  have ha := selfTestSequence_alt (doReset s)
  have hc := selfTestSequence_cfg (doReset s)
  have hi := selfTestSequence_input (doReset s)
  have hp := selfTestSequence_pos (doReset s)
  have h1 : (selfTestSequence (doReset s)).col = 0 := rfl
  have h2 : (selfTestSequence (doReset s)).page = [] := rfl
  have h3 : (selfTestSequence (doReset s)).text = [] := rfl
  unfold doSelfTest setMode
  generalize selfTestSequence (doReset s) = t at *
  cases t
  simp_all

end Sys2Proof.Machine
end

