-- ==== Sys2Proof/Laws/PerInstr.lean ====
section
/-! SUPPORT. Statements made per instruction, about the instruction as syntax. -/

namespace Sys2Proof.Laws

open Sys2Proof

/-- The unit of an instruction is one byte (formats T and P), or two where the byte arrives in ESCAPE_PENDING (formats E and
G up to the header), the first of them the introducer (R90 to R94). -/
def unitLength (i : Instr) : Nat := if i.arrivalMode = .escapePending then 2 else 1

/-- An encoded unit has its format's length and ends in the byte that the instruction's own step consumes. -/
def UnitShape.Statement (i : Instr) : Prop :=
  ∀ e : EscMap, (encode e i).length = unitLength i ∧ (encode e i).getLast? = some (encodeByte e i)

theorem UnitShape.escIntro : UnitShape.Statement .escIntro := fun _ => ⟨rfl, rfl⟩

theorem UnitShape.lf : UnitShape.Statement .lf := fun _ => ⟨rfl, rfl⟩

theorem UnitShape.eol : UnitShape.Statement .eol := fun _ => ⟨rfl, rfl⟩

theorem UnitShape.char (b : Byte) : UnitShape.Statement (.char b) := fun _ => ⟨rfl, rfl⟩

theorem UnitShape.reset : UnitShape.Statement .reset := fun _ => ⟨rfl, rfl⟩

theorem UnitShape.selfTest : UnitShape.Statement .selfTest := fun _ => ⟨rfl, rfl⟩

theorem UnitShape.startDoubleWide : UnitShape.Statement .startDoubleWide := fun _ => ⟨rfl, rfl⟩

theorem UnitShape.stopDoubleWide : UnitShape.Statement .stopDoubleWide := fun _ => ⟨rfl, rfl⟩

theorem UnitShape.startUnderline : UnitShape.Statement .startUnderline := fun _ => ⟨rfl, rfl⟩

theorem UnitShape.stopUnderline : UnitShape.Statement .stopUnderline := fun _ => ⟨rfl, rfl⟩

theorem UnitShape.startAltCharset : UnitShape.Statement .startAltCharset := fun _ => ⟨rfl, rfl⟩

theorem UnitShape.stopAltCharset : UnitShape.Statement .stopAltCharset := fun _ => ⟨rfl, rfl⟩

theorem UnitShape.graphicsMode (n : Byte) : UnitShape.Statement (.graphicsMode n) := fun _ => ⟨rfl, rfl⟩

theorem UnitShape.gfxColumn (p : Byte) : UnitShape.Statement (.gfxColumn p) := fun _ => ⟨rfl, rfl⟩

end Sys2Proof.Laws
end

