-- ==== Sys2Proof/Tests/Slice0.lean ====
section
/-! SUPPORT. Tests: the well-formedness smoke, every constructor's decoding from a word written out from the spec's encoding,
single steps against the vectors of 95_test_vectors.md, and a witness for the hypotheses of every statement that has any. -/

namespace Sys2Proof.Tests

open Sys2Proof Sys2Proof.Machine

/-! ### Helpers -/

/-- The vectors' configuration: the defaults with both self-test lists empty. -/
def vectorConfig : Config := { Config.default with selfTestMarker := [], selfTestBattery := [] }

/-- The construction state under it. -/
def base : State := { State.reset with cfg := vectorConfig }

/-- One step on byte `b`, observed through `f`. -/
def feed {α : Type} (s : State) (b : Byte) (f : State → α) : Option α :=
  match step { s with input := [b] } with
  | .next t => some (f t)
  | .fault _ => none
  | .refused _ => none

/-! ### Well-formedness smoke -/

theorem smoke_char_rejects_intercepted_bytes :
    (Instr.char 0x1B#8).wf = false ∧ (Instr.char 0x0A#8).wf = false ∧ (Instr.char 0x04#8).wf = false := by decide

theorem smoke_header_rejects_reserved_length :
    (Instr.graphicsMode 0xF8#8).wf = false ∧ (Instr.graphicsMode 0xFF#8).wf = false := by decide

theorem smoke_operands_accepted :
    (Instr.char 0xFF#8).wf = true ∧ (Instr.graphicsMode 0xF7#8).wf = true ∧ (Instr.gfxColumn 0x1B#8).wf = true := by decide

/-! ### Decoding, one word for every constructor (R91, R95, R96) -/

theorem decode_escIntro : decode EscMap.default .text 0b00011011#8 = .escIntro := by decide
theorem decode_lf : decode EscMap.default .text 0b00001010#8 = .lf := by decide
theorem decode_eol : decode EscMap.default .text 0b00000100#8 = .eol := by decide
theorem decode_char : decode EscMap.default .text 0b01000001#8 = .char 0x41#8 := by decide
theorem decode_reset : decode EscMap.default .escapePending 0b11111111#8 = .reset := by decide
theorem decode_selfTest : decode EscMap.default .escapePending 0b11111110#8 = .selfTest := by decide
theorem decode_startDoubleWide : decode EscMap.default .escapePending 0b11111101#8 = .startDoubleWide := by decide
theorem decode_stopDoubleWide : decode EscMap.default .escapePending 0b11111100#8 = .stopDoubleWide := by decide
theorem decode_startUnderline : decode EscMap.default .escapePending 0b11111011#8 = .startUnderline := by decide
theorem decode_stopUnderline : decode EscMap.default .escapePending 0b11111010#8 = .stopUnderline := by decide
theorem decode_startAltCharset : decode EscMap.default .escapePending 0b11111001#8 = .startAltCharset := by decide
theorem decode_stopAltCharset : decode EscMap.default .escapePending 0b11111000#8 = .stopAltCharset := by decide
theorem decode_graphicsMode : decode EscMap.default .escapePending 0b10000011#8 = .graphicsMode 131#8 := by decide
theorem decode_gfxColumn : decode EscMap.default .graphics 0b00001010#8 = .gfxColumn 0x0A#8 := by decide

/-- 2.2 of the vectors: the corners of Resolve. -/
theorem decode_resolve_corners :
    resolve EscMap.default 0x00#8 = .graphicsMode 0#8 ∧ resolve EscMap.default 0x1B#8 = .graphicsMode 27#8 ∧
      resolve EscMap.default 0xF7#8 = .graphicsMode 247#8 ∧ resolve EscMap.default 0xF8#8 = .stopAltCharset := by decide

theorem encode_units :
    encode EscMap.default .startUnderline = [0x1B#8, 0xFB#8] ∧ encode EscMap.default (.graphicsMode 131#8) = [0x1B#8, 0x83#8] ∧
      encode EscMap.default .lf = [0x0A#8] := by decide

/-- The opcode table's words: the two-byte row as the table numbers it, and one-byte rows. -/
theorem table_words :
    decodeTableWord 16 0x1B83 = some (.graphicsMode 131#8) ∧ decodeTableWord 8 0xFF = some .reset ∧
      decodeTableWord 16 0x1BFD = some .startDoubleWide ∧ decodeTableWord 16 0xFD1B = some .startDoubleWide ∧
      decodeTableWord 8 0x1B = some .escIntro ∧ decodeTableWord 8 0 = some (.char 0#8) := by decide

/-! ### Single steps against the vectors -/

/-- T1. -/
theorem step_escIntro_T1 : feed base 0x1B#8 (fun t => (t.mode, status t)) = some (.escapePending, 0x1#21) := by decide

/-- T2. -/
theorem step_lf_T2 : feed base 0x0A#8 (fun t => (t.events, status t)) = some ([.flush [] []], 0x0#21) := by decide

/-- R152's shape of P3's last byte: the text and the page are emitted, the flags survive (E2). -/
theorem step_eol_flushes_text_and_page :
    feed { base with dw := true, text := [0x41], page := [(0, 0x55#8), (1, 0x55#8)], col := 2 } 0x04#8
        (fun t => (t.events, t.page, t.text, t.col, t.dw)) =
      some ([.flush [0x41] [(0, 0x55#8), (1, 0x55#8)]], [], [], 0, true) := by decide

/-- T4. -/
theorem step_char_T4 : feed base 0x41#8 (fun t => (t.text, t.events, status t)) = some ([0x41], [], 0xC000#21) := by decide

/-- L6 and L5: after 12 double-wide glyphs the line is full and the next character wraps. -/
theorem step_char_wraps_L6 :
    feed { base with dw := true, col := 166, text := [0x41] } 0x42#8 (fun t => (t.text, t.events, t.col)) =
      some ([0x42], [.flush [0x41] []], 12) := by decide

/-- L12, second byte. -/
theorem step_char_unmappable_L12 :
    feed { base with cfg := { vectorConfig with unmappable := [(.native, 0x80#8)] }, text := [0x41], col := 6 } 0x80#8
        (fun t => (t.text, t.col, t.events)) = some ([0x41], 6, [.warn .unmappable 0x80#8]) := by decide

/-- E7: RESET keeps the pixels and drops the text. -/
theorem step_reset_E7 :
    feed { base with mode := .escapePending, ul := true, text := [0x41], page := [(4, 0x3C#8)], col := 6 } 0xFF#8
        (fun t => (t.page, t.text, t.events, status t)) = some ([(4, 0x3C#8)], [], [], 0x0#21) := by decide

/-- E8b: RESET_COLUMN = KEEP. -/
theorem step_reset_keep_E8b :
    feed { base with mode := .escapePending, cfg := { vectorConfig with resetColumn := .keep }, col := 13 } 0xFF#8
        (fun t => t.col) = some 13 := by decide

/-- S1: fourteen events, the construction state after them. -/
theorem step_selfTest_S1 :
    feed { base with mode := .escapePending, dw := true, ul := true } 0xFE#8
        (fun t => (t.events.length, status t, t.text, t.page)) = some (14, 0x0#21, [], []) := by decide +kernel

/-- W2, W3: the flags and STATUS after each code. -/
theorem step_startDoubleWide_W2 :
    feed { base with mode := .escapePending } 0xFD#8 status = some 0x400#21 := by decide
theorem step_stopDoubleWide_W2 :
    feed { base with mode := .escapePending, dw := true } 0xFC#8 status = some 0x0#21 := by decide
theorem step_startUnderline_E3 :
    feed { base with mode := .escapePending } 0xFB#8 status = some 0x800#21 := by decide
theorem step_stopUnderline_E4 :
    feed { base with mode := .escapePending, ul := true } 0xFA#8 status = some 0x0#21 := by decide
theorem step_startAltCharset_W3 :
    feed { base with mode := .escapePending, dw := true, ul := true } 0xF9#8 status = some 0x1C00#21 := by decide
theorem step_stopAltCharset_E6 :
    feed { base with mode := .escapePending, alt := true } 0xF8#8 status = some 0x0#21 := by decide

/-- W5: the header. -/
theorem step_graphicsMode_W5 :
    feed { base with mode := .escapePending } 0x83#8 (fun t => (status t, t.events)) = some (0x20E#21, []) := by decide

/-- V1 and G9: the length warnings, and length 0 under IMMEDIATE. -/
theorem step_graphicsMode_V1_G9 :
    feed { base with mode := .escapePending } 0xF7#8 (fun t => (t.rem, t.events)) =
        some (247#8, [.warn .gfxLength 247#8]) ∧
      feed { base with mode := .escapePending } 0x00#8 (fun t => (t.mode, t.events)) =
        some (.text, [.warn .gfxLength 0#8]) := by decide

/-- G3: underline; the last byte returns to TEXT. -/
theorem step_gfxColumn_G3 :
    feed { base with mode := .graphics, rem := 1#8, ul := true } 0x3C#8 (fun t => (t.page, t.col, t.mode)) =
      some ([(0, 0xBC#8)], 1, .text) := by decide

/-- G10a: the duplicate at column 165 under FLUSH_THEN_WRITE; and G8's forced flush. -/
theorem step_gfxColumn_G10a_G8 :
    feed { base with
        mode := .graphics, rem := 1#8, dw := true, col := 165
        cfg := { vectorConfig with dupOverflow := .flushThenWrite } } 0x11#8
        (fun t => (t.page, t.col, t.events)) =
      some ([(0, 0x11#8)], 1, [.warn .gfxOverflow 1#8, .flush [] [(165, 0x11#8)]]) ∧
    feed { base with mode := .graphics, rem := 1#8, col := 166 } 0xFF#8 (fun t => (t.page, t.col, t.events)) =
      some ([(0, 0xFF#8)], 1, [.warn .gfxOverflow 1#8, .flush [] []]) := by decide

/-- R103, R106, P2's bytes: a description with its names in any case. -/
theorem describe_P2 :
    describe EscMap.default
        [.esc "start_Double_Wide".toList, .esc "START_UNDERLINE".toList, .txt "HI".toList, .lf] =
      some [0x1B#8, 0xFD#8, 0x1B#8, 0xFB#8, 0x48#8, 0x49#8, 0x0A#8] := by decide

/-- The step runs the table's instruction as the first one after reset. -/
theorem withFetchWord_runs_header :
    (match step (State.reset.withFetchWord 16 0x1B83) with
      | .next t => some (t.mode, t.rem)
      | .fault _ => none
      | .refused _ => none) = some (.graphics, 131#8) := by decide

/-! ### Witnesses: hypotheses that are met -/

theorem witness_DecodeOfEncode : ∃ i : Instr, i.wf = true := ⟨.graphicsMode 247#8, by decide⟩

theorem witness_EscapeUnitRunsInTwoSteps :
    ∃ (s : State) (i : Instr) (rest : List Byte), i.wf = true ∧ i.arrivalMode = .escapePending ∧ s.mode = .text ∧
      s.input = encode s.cfg.escMap i ++ rest :=
  ⟨{ base with input := [0x1B#8, 0xFE#8, 0x41#8] }, .selfTest, [0x41#8], by decide⟩

theorem witness_DescribedEscapesResolve :
    lookupEscape "Self_Test".toList = some .selfTest ∧ (0xF7#8 : Byte).toNat < 0xF8 ∧
      (DescItem.gfx 2#8 [1#8, 2#8]).bytes EscMap.default = some [0x1B#8, 2#8, 1#8, 2#8] := by decide

theorem witness_DescribedElementsHaveTheirBytes :
    describe EscMap.default [.txt "~ ".toList, .lf] = some [0x7E#8, 0x20#8, 0x0A#8] := by decide

theorem witness_LineRulesWrittenOut :
    ∃ s : State, s.cfg.modelFlag = true ∧ s.alt = true ∧ s.cfg.firstTest = .textEmpty ∧ s.text = [] ∧ s.col.val = 3 :=
  ⟨{ base with cfg := { vectorConfig with modelFlag := true, firstTest := .textEmpty }, alt := true, col := 3 }, by decide⟩

theorem witness_NameLookupIgnoresCase :
    "RESET".toList.map Char.toLower = "reset".toList.map Char.toLower ∧ lookupEscape "RESET".toList = some .reset := by decide

theorem witness_EncodeIsPartialInverse :
    encodeChar .focal 0x41 = some 0x41#8 ∧ 0x20 ≤ (0x7E : CodePoint).val ∧ (0x7E : CodePoint).val ≤ 0x7E := by decide

theorem witness_ClassificationOfEveryByte : (0xF7#8 : Byte).toNat < 0xF8 ∧ ¬ (0xF8#8 : Byte).toNat < 0xF8 := by decide

theorem witness_DecodeTablesFixedRanges :
    (0x20 ≤ (0x20#8 : Byte).toNat ∧ (0x7E#8 : Byte).toNat ≤ 0x7E) ∧ (0x1F#8 : Byte).toNat ≤ 0x1F := by decide

theorem witness_UnderlineForcesBitSeven : (0x80#8 : Byte).getLsbD 7 = true := by decide

theorem witness_StepRunsDecodedInstruction : ∃ (s : State) (b : Byte) (rest : List Byte), s.input = b :: rest :=
  ⟨{ base with input := [0x41#8] }, 0x41#8, [], rfl⟩

theorem witness_NoStepWithoutByte : base.input = [] := rfl

theorem witness_StepTakesOneByteAndAddsEvents : ∃ s t : State, step s = .next t :=
  ⟨{ base with input := [0x0A#8] }, _, rfl⟩

/-- The state of L12 before its second byte. -/
def unmappableState : State :=
  { base with cfg := { vectorConfig with unmappable := [(.native, 0x80#8)] }, col := 6, text := [0x41] }

theorem witness_UnmappableCharIsDropped :
    unmappable unmappableState.cfg (activeCharset unmappableState) 0x80#8 = true := by decide

theorem witness_CharPlacedOnItsLine :
    ∃ (s : State) (b : Byte), PageCanonical s ∧ unmappable s.cfg (activeCharset s) b = false ∧
      s.col.val + (if isFirst s then 0 else padWidth s) + 5 * glyphWidth s ≤ 166 :=
  ⟨{ base with col := 160, page := [(3, 1#8)], text := [0x41] }, 0x42#8, by decide⟩

theorem witness_CharThatDoesNotFitWraps :
    ∃ (s : State) (b : Byte), unmappable s.cfg (activeCharset s) b = false ∧
      s.col.val + (if isFirst s then 0 else padWidth s) + 5 * glyphWidth s > 166 :=
  ⟨{ base with col := 161, text := [0x41] }, 0x42#8, by decide⟩

theorem witness_NormalLineHoldsTwentyFour :
    ∃ (s : State) (bytes rest : List Byte), PageCanonical s ∧ s.mode = .text ∧ s.dw = false ∧ s.cfg.unmappable = [] ∧ s.col.val = 0 ∧
      s.text = [] ∧ s.input = bytes ++ rest ∧ bytes.length ≤ 24 ∧ ∀ b ∈ bytes, charOperandOk b = true :=
  ⟨{ base with input := List.replicate 24 0x41#8, page := [(164, 0x3C#8)] }, List.replicate 24 0x41#8, [], by decide⟩

theorem witness_FlagsChangeOnlyByTheirCodes : ∃ t : State, exec .startUnderline base = .next t ∧ t.ul ≠ base.ul :=
  ⟨_, rfl, by decide⟩

theorem witness_EscapeTakesExactlyOneByte :
    ∃ (s : State) (b c : Byte) (rest : List Byte), s.mode = .escapePending ∧ s.input = b :: rest ∧ 0xF8 ≤ b.toNat ∧
      c.toNat < 0xF8 ∧ c ≠ 0#8 :=
  ⟨{ base with mode := .escapePending, input := [0xF8#8] }, 0xF8#8, 0xF7#8, [], by decide⟩

theorem witness_GraphicsHeaderSetsTheCount : (247#8 : Byte).toNat ≤ 247 := by decide

theorem witness_LengthAbove247IsRefused :
    247 < (248#8 : Byte).toNat ∧ decode EscMap.default .escapePending 247#8 = .graphicsMode 247#8 := by decide

theorem witness_PayloadByteDrawsOneColumn : ∃ s : State, PageCanonical s ∧ s.dw = false ∧ s.col.val < 166 :=
  ⟨{ base with col := 165, page := [(165, 1#8)] }, by decide⟩

theorem witness_PayloadByteIsDoubled : ∃ s : State, PageCanonical s ∧ s.dw = true ∧ s.col.val < 165 :=
  ⟨{ base with col := 164, dw := true, page := [(164, 1#8)] }, by decide⟩

theorem witness_DuplicateAtLastColumn :
    (∃ s : State, PageCanonical s ∧ s.dw = true ∧ s.col.val = 165 ∧ s.cfg.dupOverflow = .discard) ∧
      ∃ s : State, PageCanonical s ∧ s.dw = true ∧ s.col.val = 165 ∧ s.cfg.dupOverflow = .flushThenWrite :=
  ⟨⟨{ base with col := 165, dw := true }, by decide⟩,
   ⟨{ base with col := 165, dw := true, cfg := { vectorConfig with dupOverflow := .flushThenWrite } }, by decide⟩⟩

theorem witness_FullLineForcesFlush : ∃ s : State, s.col.val = 166 := ⟨{ base with col := 166 }, rfl⟩

theorem witness_PayloadByteCountsDown :
    (∃ s : State, 2 ≤ s.rem.toNat) ∧ (∃ s : State, s.rem.toNat = 1) ∧
      ∀ p : GfxZeroPolicy, ∃ s : State, s.rem.toNat = 0 ∧ s.cfg.gfxZero = p :=
  ⟨⟨{ base with rem := 2#8 }, by decide⟩, ⟨{ base with rem := 1#8 }, by decide⟩,
   fun p => ⟨{ base with cfg := { vectorConfig with gfxZero := p } }, rfl, rfl⟩⟩

theorem witness_PayloadTakesExactlyItsBytes :
    ∃ (bytes rest : List Byte) (s : State), s.mode = .graphics ∧ bytes ≠ [] ∧ s.rem.toNat = bytes.length ∧
      s.input = bytes ++ rest :=
  ⟨[0x0A#8, 0x1B#8], [], { base with mode := .graphics, rem := 2#8, input := [0x0A#8, 0x1B#8] }, by decide⟩

theorem witness_WrapPolicyTakes256Bytes :
    ∃ (bytes rest : List Byte) (s : State), s.mode = .graphics ∧ s.cfg.gfxZero = .wrap256 ∧ s.rem = 0#8 ∧
      bytes.length = 256 ∧ s.input = bytes ++ rest :=
  ⟨List.replicate 256 1#8, [],
    { base with mode := .graphics, cfg := { vectorConfig with gfxZero := .wrap256 }, input := List.replicate 256 1#8 ++ [] },
    rfl, rfl, rfl, List.length_replicate, rfl⟩

theorem witness_NeverPolicyIsStuckInGraphics :
    ∃ s : State, s.mode = .graphics ∧ s.cfg.gfxZero = .never ∧ s.rem = 0#8 ∧ 3 ≤ s.input.length :=
  ⟨{ base with mode := .graphics, cfg := { vectorConfig with gfxZero := .never }, input := [1#8, 0x1B#8, 0xFF#8] }, by decide⟩

theorem witness_SelfTestEmitsFourteenFlushes :
    base.cfg.unmappable = [] ∧
      (∀ u : State, u.cfg = base.cfg → u.dw = false → u.ul = false → u.alt = false → u.col.val = 48 → u.text.length = 7 →
        (runOps u base.cfg.selfTestMarker).events = u.events) ∧
      (∀ u : State, u.cfg = base.cfg → u.dw = false → u.ul = false → u.alt = false → u.col.val = 0 → u.text = [] →
        (runOps u base.cfg.selfTestBattery).events = u.events) :=
  ⟨rfl, fun _ _ _ _ _ _ _ => rfl, fun _ _ _ _ _ _ _ => rfl⟩

/-- A doubled column with room for one copy only. -/
theorem witness_SelfTestOperationsRunInOrder : ∃ u : State, PageCanonical u ∧ u.dw = true ∧ u.col.val = 165 :=
  ⟨{ base with dw := true, col := 165 }, by decide⟩

theorem witness_SelfTestLastLines : ∃ s : State, s.cfg.unmappable = [] ∧ s.cfg.selfTestMarker ≠ [] ∧ s.cfg.selfTestBattery ≠ [] :=
  ⟨{ base with cfg := { vectorConfig with selfTestMarker := [.char 0x42#8], selfTestBattery := [.col 0x3C#8] } }, by decide⟩

theorem witness_SelfTestRows : ∃ s : State, s.cfg.unmappable = [] ∧ s.cfg.modelFlag = true :=
  ⟨{ base with cfg := { vectorConfig with modelFlag := true } }, rfl, rfl⟩

/-- A legal state in the middle of a line: one character placed, an underlined payload pending. -/
def midLine : State :=
  { base with mode := .graphics, rem := 3#8, ul := true, col := 6, page := [(5, 0x80#8)], text := [0x41], input := [0x0A#8] }

theorem midLine_legal : Legal midLine where
  page := by decide
  idle := fun h => absurd rfl h
  count := fun _ => (by decide : 1 ≤ midLine.rem.toNat ∧ midLine.rem.toNat ≤ 247)
  fits := .inr (.inl (by decide))
  events := fun _ _ h => nomatch h

theorem witness_StepKeepsLegal : ∃ s t : State, Legal s ∧ step s = .next t := ⟨midLine, _, midLine_legal, rfl⟩

theorem witness_OnlyResetLeavesStalePixels :
    ∃ (i : Instr) (s t : State), PageCanonical s ∧ BlankAhead s ∧ exec i s = .next t ∧ s.page ≠ [] := by
  refine ⟨.gfxColumn 1#8, midLine, _, by decide, ?_, rfl, by decide⟩
  intro c hc
  rw [show midLine.page = [(5, 0x80#8)] from rfl, Memory.read_cons, if_neg ?_]
  · rfl
  · have : midLine.col.val = 6 := rfl
    omega

theorem witness_WarningsOnlyForTheirCauses :
    ∃ (i : Instr) (s t : State) (evs : List Event) (code : WarnCode) (info : Byte),
      exec i s = .next t ∧ t.events = s.events ++ evs ∧ Event.warn code info ∈ evs :=
  ⟨.gfxColumn 0xFF#8, { base with mode := .graphics, rem := 9#8, col := 166 }, _, [.warn .gfxOverflow 9#8, .flush [] []],
    .gfxOverflow, 9#8, rfl, rfl, .head _⟩

theorem witness_FlushesOnlyAtTheirPoints :
    ∃ (i : Instr) (s t : State) (evs : List Event) (text : List CodePoint) (bitmap : Memory),
      exec i s = .next t ∧ t.events = s.events ++ evs ∧ Event.flush text bitmap ∈ evs :=
  ⟨.lf, base, _, [.flush [] []], [], [], rfl, rfl, .head _⟩

theorem witness_ObservationDoesNotFeedBack :
    ∃ (i : Instr) (s t : State) (before : List Event), exec i s = .next t ∧ before ≠ [] :=
  ⟨.eol, base, _, [.warn .unmappable 0x80#8], rfl, by decide⟩

theorem witness_NoLookahead : ∃ (i : Instr) (s t : State) (later : List Byte), exec i s = .next t ∧ later ≠ s.input :=
  ⟨.char 0x41#8, base, _, [0x0A#8], rfl, by decide⟩

/-- A legal state with a payload pending and the resynchronisation sequence offered. -/
def resyncState : State :=
  { midLine with input := List.replicate 248 0x0A#8 ++ [0x1B#8, 0xFF#8] ++ [] }

theorem witness_ResynchronisationReachesConstruction :
    ∃ (s : State) (rest : List Byte), Legal s ∧ (s.cfg.gfxZero = .immediate ∨ s.cfg.gfxZero = .oneByte) ∧
      s.input = List.replicate 248 0x0A#8 ++ [0x1B#8, 0xFF#8] ++ rest :=
  ⟨resyncState, [],
    ⟨midLine_legal.page, midLine_legal.idle, midLine_legal.count, midLine_legal.fits, midLine_legal.events⟩,
    .inl rfl, rfl⟩

end Sys2Proof.Tests
end

/-! SUPPORT. The step on an offered byte: what is decoded is well formed in every mode, and the step runs it. -/

namespace Sys2Proof.Machine

open Sys2Proof

/-- A TEXT byte that is none of the three intercepted ones is an operand that CHAR may have (R91). -/
theorem decodeText_wf (b : Byte) : (decodeText b).wf = true := by
  by_cases hesc : b = escByte
  · rw [hesc]; rfl
  by_cases hlf : b = lfByte
  · rw [hlf]; rfl
  by_cases heol : b = eolByte
  · rw [heol]; rfl
  · simp [decodeText, hesc, hlf, heol, Instr.wf, charOperandOk]

/-- No byte is illegal in any mode (R100). -/
theorem decode_wf (e : EscMap) (m : Mode) (b : Byte) : (decode e m b).wf = true := by
  cases m with
  | text => exact decodeText_wf b
  | escapePending => exact resolve_wf e b
  | graphics => rfl

/-- An offered byte is taken and read in the mode in which it arrives (R90, R150). -/
theorem fetch_of_input_cons {s : State} {b : Byte} {rest : List Byte} (h : s.input = b :: rest) :
    fetch s = .ok (decode s.cfg.escMap s.mode b, takeByte s rest) := by
  simp only [fetch, h, decodeStream]

/-- With a byte offered, the converse of `step_next`: the byte determines the step. -/
theorem step_of_input_cons {s : State} {b : Byte} {rest : List Byte} (h : s.input = b :: rest) :
    step s = exec (decode s.cfg.escMap s.mode b) (takeByte s rest) := by
  simp only [step, fetch_of_input_cons h]

/-- Settles O14: `decode` is total and well formed, and `takeByte` is the state that the statement writes out. -/
theorem stepRunsDecodedInstruction : Obligations.StepRunsDecodedInstruction := by
  unfold Obligations.StepRunsDecodedInstruction
  intro s b rest h
  exact ⟨decode_wf s.cfg.escMap s.mode b, step_of_input_cons h⟩

end Sys2Proof.Machine

/-! SUPPORT. What every step keeps, by one case split over the instructions: a property that the drawing operations keep and
that does not look at the mode or the count is kept by every instruction but the flag codes, RESET and SELF_TEST, and by
these when it survives what they do. -/

namespace Sys2Proof.Machine

open Sys2Proof

/-- A GRAPHICS_MODE that answers has an operand that Resolve can produce, and runs the header (R181, U4). -/
theorem exec_graphicsMode_next {n : Byte} {s t : State} (h : exec (.graphicsMode n) s = .next t) :
    n.toNat ≤ 247 ∧ t = graphicsHeader s n := by
  by_cases hn : n.toNat < 0xF8
  · rw [exec_graphicsMode s hn] at h
    exact ⟨by omega, (Host.Outcome.next.inj h).symm⟩
  · have hrefused : exec (.graphicsMode n) s = .refused .lengthNotEncodable :=
      if_neg (by simpa only [lengthOperandOk, decide_eq_true_eq] using hn)
    rw [hrefused] at h
    cases h

/-- The header is the length check and then a write of the mode and the count (R181). -/
theorem graphicsHeader_eq (s : State) (n : Byte) :
    graphicsHeader s n =
      { checkLength s n with mode := if n = 0#8 then zeroLengthMode s.cfg.gfxZero else .graphics, rem := n } := by
  unfold graphicsHeader
  simp only [checkLength_cfg]
  split <;> rfl

/-- The countdown writes the mode and the count and nothing else (R200, R204). -/
theorem countDown_eq (s : State) :
    countDown s = { s with mode := (countDown s).mode, rem := (countDown s).rem } := by
  unfold countDown zeroCount
  simp only
  repeat' split
  all_goals rfl

/-- What is kept by PutCol, Flush, a warning, a printed character and any write of the mode and the count. A character is
one operation here, where `KeptByDrawing` takes its glyph and its code point apart: a bound on the text that its columns pay
for holds only after both. -/
structure KeptByPrinting (P : State → Prop) : Prop where
  putCol : ∀ s v, P s → P (putCol s v)
  flush : ∀ s, P s → P (flush s)
  warn : ∀ s c i, P s → P (raiseWarn s c i)
  printChar : ∀ s b, P s → P (printChar s b)
  control : ∀ s m r, P s → P { s with mode := m, rem := r }

section Printing

variable {P : State → Prop} {s : State}

theorem KeptByDrawing.toPrinting (k : KeptByDrawing P) (hc : ∀ s m r, P s → P { s with mode := m, rem := r }) :
    KeptByPrinting P where
  putCol := k.putCol
  flush := k.flush
  warn := k.warn
  printChar _ b h := k.printChar b h
  control := hc

theorem KeptByPrinting.setMode (k : KeptByPrinting P) (m : Mode) (h : P s) : P (setMode s m) := k.control s m s.rem h

theorem KeptByPrinting.putCols (k : KeptByPrinting P) (vs : List Byte) (h : P s) : P (putCols s vs) :=
  List.foldlRecOn vs Machine.putCol h fun t ht v _ => k.putCol t v ht

theorem KeptByPrinting.appendCol (k : KeptByPrinting P) (v : Byte) (h : P s) : P (appendCol s v) := by
  rw [appendCol_eq_putCols]
  exact k.putCols _ h

theorem KeptByPrinting.runOps (k : KeptByPrinting P) (ops : List SelfTestOp) (h : P s) : P (runOps s ops) := by
  refine List.foldlRecOn ops runOp h fun t ht o _ => ?_
  cases o with
  | char b => exact k.printChar t b ht
  | col v => exact k.appendCol v ht

theorem KeptByPrinting.selfTestChars (k : KeptByPrinting P) (h : P s) : P (selfTestChars s) := by
  refine List.foldlRecOn _ selfTestChar h fun t ht i _ => ?_
  have hprint := k.printChar t (selfTestByte i) ht
  unfold selfTestChar
  simp only
  split
  · exact k.flush _ hprint
  · exact hprint

/-- SELF_TEST begins with a flush, so only the flushed state has to have the property (R172, R220). -/
theorem KeptByPrinting.doSelfTest (k : KeptByPrinting P) (h : P (Machine.flush (doReset s))) : P (doSelfTest s) := by
  unfold Machine.doSelfTest selfTestSequence
  have hmarker := fun ops => k.runOps ops (k.selfTestChars h)
  have hbattery := fun ops marker => k.runOps ops (k.flush _ (k.flush _ (hmarker marker)))
  exact k.setMode _ (k.flush _ (k.flush _ (hbattery _ _)))

theorem KeptByPrinting.forcedFlush (k : KeptByPrinting P) (h : P s) : P (forcedFlush s) := k.flush _ (k.warn _ _ _ h)

theorem KeptByPrinting.duplicateRoom (k : KeptByPrinting P) (h : P s) : P (duplicateRoom s) := by
  unfold Machine.duplicateRoom
  split
  · exact k.forcedFlush h
  · exact h

theorem KeptByPrinting.drawPayload (k : KeptByPrinting P) (b : Byte) (h : P s) : P (drawPayload s b) := by
  have hroom : P (if lineFull s = true then Machine.forcedFlush s else s) := by
    split
    · exact k.forcedFlush h
    · exact h
  unfold Machine.drawPayload
  generalize (if lineFull s = true then Machine.forcedFlush s else s) = s0 at hroom
  simp only
  split
  · exact k.putCol _ _ (k.duplicateRoom (k.putCol _ _ hroom))
  · exact k.putCol _ _ hroom

theorem KeptByPrinting.checkLength (k : KeptByPrinting P) (n : Byte) (h : P s) : P (checkLength s n) := by
  unfold Machine.checkLength
  split
  · exact k.warn _ _ _ h
  · exact h

/-- The one case split over the instructions: what is kept by printing is kept by `exec`, where a flag code, RESET or
SELF_TEST is met by the premise that names it. -/
theorem KeptByPrinting.exec (k : KeptByPrinting P) {i : Instr} {t : State} (h : exec i s = .next t) (hs : P s)
    (hdw : i = .startDoubleWide ∨ i = .stopDoubleWide → ∀ v, P (setDw s v))
    (hul : i = .startUnderline ∨ i = .stopUnderline → ∀ v, P (setUl s v))
    (halt : i = .startAltCharset ∨ i = .stopAltCharset → ∀ v, P (setAlt s v))
    (hreset : i = .reset → P (doReset s))
    (hself : i = .selfTest → P (Machine.flush (doReset s))) : P t := by
  have conclude {u : State} (he : Machine.exec i s = .next u) (hu : P u) : P t := by
    rw [he] at h
    exact Host.Outcome.next.inj h ▸ hu
  cases i with
  | escIntro => exact conclude (exec_escIntro s) (k.setMode _ hs)
  | lf => exact conclude (exec_lf s) (k.flush s hs)
  | eol => exact conclude (exec_eol s) (k.flush s hs)
  | char b => exact conclude (exec_char s b) (k.printChar s b hs)
  | reset => exact conclude (exec_reset s) (hreset rfl)
  | selfTest => exact conclude (exec_selfTest s) (k.doSelfTest (hself rfl))
  | startDoubleWide => exact conclude (exec_startDoubleWide s) (k.setMode _ (hdw (.inl rfl) true))
  | stopDoubleWide => exact conclude (exec_stopDoubleWide s) (k.setMode _ (hdw (.inr rfl) false))
  | startUnderline => exact conclude (exec_startUnderline s) (k.setMode _ (hul (.inl rfl) true))
  | stopUnderline => exact conclude (exec_stopUnderline s) (k.setMode _ (hul (.inr rfl) false))
  | startAltCharset => exact conclude (exec_startAltCharset s) (k.setMode _ (halt (.inl rfl) true))
  | stopAltCharset => exact conclude (exec_stopAltCharset s) (k.setMode _ (halt (.inr rfl) false))
  | graphicsMode n =>
    obtain ⟨_, rfl⟩ := exec_graphicsMode_next h
    rw [graphicsHeader_eq]
    exact k.control _ _ _ (k.checkLength n hs)
  | gfxColumn p =>
    refine conclude (exec_gfxColumn s p) ?_
    rw [countDown_eq]
    exact k.control _ _ _ (k.drawPayload p hs)

end Printing

end Sys2Proof.Machine

/-! SUPPORT. The line of a legal state (R29, R30, R36, R248): the text never outgrows the columns that its characters take,
and what is emitted is such a line. -/

namespace Sys2Proof.Machine

open Sys2Proof

/-- The part of `Legal` that speaks of the line and of the lines emitted. -/
structure LineLegal (s : State) : Prop where
  page : PageCanonical s
  fits : TextFits s
  events : EventsLegal s

/-- A line holds at most 24 characters: seven columns each on 166 (R248). -/
theorem TextFits.length_le {s : State} (h : TextFits s) : s.text.length ≤ 24 := by
  have := s.col.isLt
  rcases h with h | h | ⟨_, h⟩
  · simp [h]
  · omega
  · omega

/-- More columns leave more room. -/
theorem TextFits.mono {s t : State} (h : TextFits s) (ht : t.text = s.text) (hc : s.col.val ≤ t.col.val) : TextFits t := by
  unfold TextFits at *
  rw [ht]
  exact h.imp_right fun h => by omega

/-- An event adds no illegal line when it is no line. -/
theorem EventsLegal.append_warn {s t : State} {c : WarnCode} {i : Byte} (h : EventsLegal s)
    (ht : t.events = s.events ++ [.warn c i]) : EventsLegal t := by
  intro text bitmap hm
  rw [ht, List.mem_append, List.mem_singleton] at hm
  rcases hm with hm | hm
  · exact h text bitmap hm
  · cases hm

theorem EventsLegal.of_eq {s t : State} (h : EventsLegal s) (ht : t.events = s.events) : EventsLegal t := by
  unfold EventsLegal
  rwa [ht]

theorem LineLegal.putCol {s : State} (h : LineLegal s) (v : Byte) : LineLegal (putCol s v) where
  page := putCol_wf h.page v
  fits := h.fits.mono (putCol_text s v) (by
    have := s.col.isLt
    rw [putCol_col, pageWidth]
    omega)
  events := h.events.of_eq (putCol_events s v)

/-- The line that is flushed is the legal one of the state before. -/
theorem LineLegal.flush {s : State} (h : LineLegal s) : LineLegal (flush s) where
  page := rfl
  fits := .inl rfl
  events text bitmap hm := by
    rw [flush_events, List.mem_append, List.mem_singleton] at hm
    rcases hm with hm | hm
    · exact h.events text bitmap hm
    · cases hm
      exact ⟨h.fits.length_le, h.page⟩

theorem LineLegal.warn {s : State} (h : LineLegal s) (c : WarnCode) (i : Byte) : LineLegal (raiseWarn s c i) where
  page := h.page
  fits := h.fits
  events := h.events.append_warn (raiseWarn_events s c i)

theorem LineLegal.putCols {s : State} (h : LineLegal s) (vs : List Byte) : LineLegal (putCols s vs) :=
  List.foldlRecOn vs Machine.putCol h fun _ ht v _ => ht.putCol v

theorem LineLegal.afterPad {s : State} (h : LineLegal s) (p : Byte) (k : Nat) : LineLegal (afterPad s p k) := by
  unfold Machine.afterPad
  split
  · exact padCol_eq_putCols s p k ▸ h.putCols _
  · exact h

/-- The first character of a line finds no text before it, under both tests of R249. -/
theorem text_eq_nil_of_isFirst {s : State} (h : TextFits s) (hf : isFirst s = true) : s.text = [] := by
  unfold isFirst at hf
  cases hp : s.cfg.firstTest with
  | textEmpty =>
    rw [hp] at hf
    exact List.isEmpty_iff.mp hf
  | columnZero =>
    rw [hp] at hf
    have hcol : s.col.val = 0 := of_decide_eq_true hf
    unfold TextFits at h
    rcases h with h | h | h
    · exact h
    · exact List.eq_nil_of_length_eq_zero (by omega)
    · omega

/-- The padding after a character is written, or there is no room for it on the line (R244). -/
theorem afterPad_col (s : State) (p : Byte) {k : Nat} (hk : k = 1 ∨ k = 2) :
    (afterPad s p k).col.val = min (s.col.val + k) pageWidth ∨
      (pageWidth ≤ s.col.val + k ∧ (afterPad s p k).col.val = s.col.val) := by
  unfold afterPad
  split
  · left
    rw [padCol_col]
    rcases hk with rfl | rfl <;> rfl
  · rename_i hdue
    refine .inr ⟨?_, rfl⟩
    unfold afterPadDue at hdue
    simp only [pageWidth] at *
    split at hdue <;> rw [decide_eq_true_eq] at hdue <;> omega

/-- The columns of a character that fits, before the padding after it. -/
theorem putCols_col_of_fits {s : State} (h : wraps s = false) (p : Byte) (u : Bool) (g : Glyph) :
    (putCols s (List.replicate (leadWidth s) p ++ glyphRun u (glyphWidth s) g)).col.val =
        s.col.val + leadWidth s + 5 * glyphWidth s ∧
      s.col.val + leadWidth s + 5 * glyphWidth s ≤ pageWidth := by
  have hroom : s.col.val + neededColumns s ≤ pageWidth := Nat.not_lt.mp (of_decide_eq_false h)
  unfold neededColumns at hroom
  rw [putCols_col, List.length_append, List.length_replicate, glyphRun_length]
  omega

/-- A character that fits takes the columns that R248 counts for it. -/
theorem TextFits.placed {s t : State} (h : TextFits s) (hw : wraps s = false) {g : Glyph}
    (hc : t.col = (placeGlyph s g).col) (ht : t.text.length = s.text.length + 1) : TextFits t := by
  have hkp := padWidth_cases s
  have hk := glyphWidth_cases s
  rw [placeGlyph_of_fits hw] at hc
  obtain ⟨hcol, hroom⟩ := putCols_col_of_fits hw (padValue s.ul) s.ul g
  have hafter := afterPad_col
    (putCols s (List.replicate (leadWidth s) (padValue s.ul) ++ glyphRun s.ul (glyphWidth s) g)) (padValue s.ul) hkp
  rw [← hc, hcol] at hafter
  have hlead : s.text.length = 0 ∨ leadWidth s = padWidth s := by
    unfold leadWidth
    by_cases hf : isFirst s = true
    · exact .inl (by rw [text_eq_nil_of_isFirst h hf, List.length_nil])
    · exact .inr (if_neg hf)
  have hn : s.text.length = 0 ∨ 7 * s.text.length ≤ s.col.val + 1 ∨ 164 ≤ s.col.val :=
    h.imp (fun he => by rw [he, List.length_nil]) (Or.imp_right And.left)
  unfold TextFits
  rw [ht]
  simp only [pageWidth] at *
  omega

theorem LineLegal.placeGlyph_of_fits {s : State} (h : LineLegal s) (hw : wraps s = false) (g : Glyph) (cp : CodePoint) :
    LineLegal (appendText (placeGlyph s g) cp) := by
  have hplaced : LineLegal (placeGlyph s g) := by
    rw [Machine.placeGlyph_of_fits hw]
    exact (h.putCols _).afterPad _ _
  have htext : (placeGlyph s g).text = s.text := by
    rw [Machine.placeGlyph_of_fits hw, afterPad_text]
    exact putCols_field State.text (fun t v => putCol_text t v) s _
  exact
    { page := by rw [PageCanonical, appendText_page]; exact hplaced.page
      fits := h.fits.placed hw (appendText_col _ cp) (by
        rw [appendText_text, List.length_append, htext, List.length_singleton])
      events := hplaced.events.of_eq (appendText_events _ cp) }

/-- A character is placed on the line that has room for it: this one, or the fresh one after a flush (R243). -/
theorem LineLegal.printChar {s : State} (h : LineLegal s) (b : Byte) : LineLegal (printChar s b) := by
  unfold Machine.printChar
  split
  · exact h.warn _ _
  · cases hw : wraps s with
    | false => exact h.placeGlyph_of_fits hw _ _
    | true =>
      rw [placeGlyph_of_wraps hw]
      exact h.flush.placeGlyph_of_fits (wraps_flush s) _ _

theorem lineLegal_kept : KeptByPrinting LineLegal where
  putCol _ v h := h.putCol v
  flush _ h := h.flush
  warn _ c i h := h.warn c i
  printChar _ b h := h.printChar b
  control _ _ _ h := ⟨h.page, h.fits, h.events⟩

/-- RESET empties the text and leaves the page (R171). -/
theorem LineLegal.doReset {s : State} (h : LineLegal s) : LineLegal (doReset s) := ⟨h.page, .inl rfl, h.events⟩

theorem LineLegal.exec {i : Instr} {s t : State} (hs : LineLegal s) (h : exec i s = .next t) : LineLegal t :=
  lineLegal_kept.exec h hs
    (fun _ _ => ⟨hs.page, hs.fits, hs.events⟩)
    (fun _ _ => ⟨hs.page, hs.fits, hs.events⟩)
    (fun _ _ => ⟨hs.page, hs.fits, hs.events⟩)
    (fun _ => hs.doReset)
    (fun _ => hs.doReset.flush)

end Sys2Proof.Machine

/-! SUPPORT. The graphics count (R22, R182, R204): an instruction runs in the mode in which its byte arrives, and from there
it leaves a count that the new mode allows. -/

namespace Sys2Proof.Machine

open Sys2Proof

/-- A decoded byte is an instruction of the mode it arrived in (R95). -/
theorem decode_arrivalMode (e : EscMap) (m : Mode) (b : Byte) : (decode e m b).arrivalMode = m := by
  cases m with
  | text =>
    show (decodeText b).arrivalMode = .text
    unfold decodeText
    repeat' split
    all_goals rfl
  | escapePending =>
    show (resolve e b).toInstr.arrivalMode = .escapePending
    cases resolve e b <;> rfl
  | graphics => rfl

/-- The part of `Legal` that speaks of the mode and the count. -/
structure CountOk (s : State) : Prop where
  idle : CountIdle s
  legal : CountLegal s

/-- Outside GRAPHICS the count is legal when it is 0. -/
theorem CountOk.of_idle {s : State} (hm : s.mode ≠ .graphics) (hr : s.rem = 0#8) : CountOk s :=
  ⟨fun _ => hr, fun h => absurd h hm⟩

/-- In GRAPHICS a count of 1 to 247 is legal under every policy. -/
theorem CountOk.of_range {s : State} (hm : s.mode = .graphics) (h1 : 1 ≤ s.rem.toNat) (h2 : s.rem.toNat ≤ 247) :
    CountOk s := by
  refine ⟨fun h => absurd hm h, fun _ => ?_⟩
  cases s.cfg.gfxZero with
  | immediate => exact ⟨h1, h2⟩
  | oneByte => exact h2
  | wrap256 => trivial
  | never => exact h2

/-- In GRAPHICS under WRAP_256 every count is legal. -/
theorem CountOk.of_wrap256 {s : State} (hm : s.mode = .graphics) (hp : s.cfg.gfxZero = .wrap256) : CountOk s :=
  ⟨fun h => absurd hm h, fun _ => by rw [hp]; trivial⟩

/-- A zero count stays in GRAPHICS under every policy but IMMEDIATE. -/
theorem CountOk.of_zero {s : State} (hm : s.mode = .graphics) (hr : s.rem = 0#8) (hp : s.cfg.gfxZero ≠ .immediate) :
    CountOk s := by
  refine ⟨fun h => absurd hm h, fun _ => ?_⟩
  cases hz : s.cfg.gfxZero with
  | immediate => exact absurd hz hp
  | oneByte => simp [hr]
  | wrap256 => trivial
  | never => simp [hr]

/-- The count of a legal state in GRAPHICS is at most 247, or its policy is WRAP_256. -/
theorem CountLegal.le_or_wrap256 {s : State} (h : CountLegal s) (hm : s.mode = .graphics) :
    s.rem.toNat ≤ 247 ∨ s.cfg.gfxZero = .wrap256 := by
  have h := h hm
  cases hz : s.cfg.gfxZero with
  | immediate => rw [hz] at h; exact .inl h.2
  | oneByte => rw [hz] at h; exact .inl h
  | wrap256 => exact .inr rfl
  | never => rw [hz] at h; exact .inl h

/-- The header leaves its length, which Resolve keeps at most 247, and a zero length goes by its policy (R181, R182). -/
theorem countOk_graphicsHeader (s : State) {n : Byte} (hn : n.toNat ≤ 247) : CountOk (graphicsHeader s n) := by
  rw [graphicsHeader_eq]
  by_cases h0 : n = 0#8
  · cases hz : s.cfg.gfxZero with
    | immediate => exact .of_idle (by simp [h0, zeroLengthMode]) h0
    | oneByte => exact .of_zero (by simp [h0, zeroLengthMode]) h0 (by simp [hz])
    | wrap256 => exact .of_zero (by simp [h0, zeroLengthMode]) h0 (by simp [hz])
    | never => exact .of_zero (by simp [h0, zeroLengthMode]) h0 (by simp [hz])
  · have hpos : 1 ≤ n.toNat := Nat.one_le_iff_ne_zero.mpr fun h => h0 (BitVec.eq_of_toNat_eq h)
    exact .of_range (by simp [h0]) hpos hn

/-- ZeroCount leaves a legal count: a legal state has a zero count in GRAPHICS only under the three policies for which
R204 gives an action. -/
theorem CountOk.zeroCount {s : State} (h : CountOk s) (hm : s.mode = .graphics) (hr : s.rem = 0#8) :
    CountOk (zeroCount s) := by
  unfold Machine.zeroCount
  cases hz : s.cfg.gfxZero with
  | immediate =>
    have hpos := h.legal hm
    rw [hz, hr] at hpos
    exact absurd hpos.1 (by decide)
  | oneByte => exact .of_idle (by simp [zeroCountAction]) hr
  | wrap256 => exact .of_wrap256 hm hz
  | never => exact (CountOk.of_zero hm hr (by simp [hz]) : CountOk s)

/-- The countdown leaves a legal count: one less, and at zero the mode is TEXT (R200). -/
theorem CountOk.countDown {s : State} (h : CountOk s) (hm : s.mode = .graphics) : CountOk (countDown s) := by
  unfold Machine.countDown
  simp only
  split
  · rename_i hpos
    have hless : (s.rem - 1#8).toNat = s.rem.toNat - 1 := by bv_omega
    split
    · rename_i hzero
      exact .of_idle (by simp) hzero
    · rename_i hne
      have hrem : 1 ≤ (s.rem - 1#8).toNat := Nat.one_le_iff_ne_zero.mpr fun h => hne (BitVec.eq_of_toNat_eq h)
      rcases h.legal.le_or_wrap256 hm with hle | hwrap
      · exact .of_range hm hrem (by simp only [hless]; omega)
      · exact .of_wrap256 hm hwrap
  · rename_i hzero
    exact h.zeroCount hm (BitVec.eq_of_toNat_eq (by simpa using hzero))

/-- An instruction that runs in its own mode leaves a legal count. -/
theorem CountOk.exec {i : Instr} {s t : State} (hs : CountOk s) (hm : i.arrivalMode = s.mode)
    (h : exec i s = .next t) : CountOk t := by
  have idle (hi : i.arrivalMode ≠ .graphics) : s.rem = 0#8 := hs.idle (hm ▸ hi)
  cases i with
  | escIntro =>
    cases h
    exact .of_idle (by simp) (idle (by decide))
  | lf | eol | char =>
    cases h
    exact .of_idle (by simp [← hm, Instr.arrivalMode]) (by simpa using idle (by simp [Instr.arrivalMode]))
  | reset =>
    cases h
    exact .of_idle (by simp) rfl
  | selfTest =>
    cases h
    exact .of_idle (by simp [doSelfTest_eq]) (by simp [doSelfTest_eq])
  | startDoubleWide | stopDoubleWide | startUnderline | stopUnderline | startAltCharset | stopAltCharset =>
    cases h
    exact .of_idle (by simp) (idle (by decide))
  | graphicsMode n =>
    obtain ⟨hn, rfl⟩ := exec_graphicsMode_next h
    exact countOk_graphicsHeader s hn
  | gfxColumn p =>
    cases h
    have hmode : (drawPayload s p).mode = .graphics := by rw [drawPayload_mode, ← hm, Instr.arrivalMode]
    refine CountOk.countDown ⟨fun hne => absurd hmode hne, fun _ => ?_⟩ hmode
    rw [drawPayload_cfg, drawPayload_rem]
    exact hs.legal hm.symm

end Sys2Proof.Machine

/-! The statements of 10_state.md. -/

namespace Sys2Proof.Machine

open Sys2Proof

/-- Settles O41: the line and the count of a legal state are each kept, the count because the step runs the instruction in
the mode in which it was decoded. -/
theorem stepKeepsLegal : Obligations.StepKeepsLegal := by
  unfold Obligations.StepKeepsLegal
  intro s t hs hstep
  obtain ⟨b, rest, -, hexec⟩ := step_next hstep
  have hline : LineLegal (takeByte s rest) := ⟨hs.page, hs.fits, hs.events⟩
  have hcount : CountOk (takeByte s rest) := ⟨hs.idle, hs.count⟩
  obtain ⟨page, fits, events⟩ := hline.exec hexec
  obtain ⟨idle, count⟩ := hcount.exec (decode_arrivalMode s.cfg.escMap s.mode b) hexec
  exact ⟨page, idle, count, fits, events⟩

/-- The ports and the configuration after any part of a step that began in `s`. -/
structure ExtendsSession (s t : State) : Prop where
  input : t.input = s.input
  pos : t.pos = s.pos
  cfg : t.cfg = s.cfg
  events : s.events <+: t.events

theorem extendsSession_kept (s : State) : KeptByDrawing (ExtendsSession s) where
  putCol t v h := ⟨by simp [h.input], by simp [h.pos], by simp [h.cfg], by simpa using h.events⟩
  flush t h := ⟨h.input, h.pos, h.cfg, h.events.trans (List.prefix_append _ _)⟩
  warn t c i h := ⟨h.input, h.pos, h.cfg, h.events.trans (List.prefix_append _ _)⟩
  text t cp h := ⟨h.input, h.pos, h.cfg, h.events⟩

/-- No instruction touches the input port or the configuration, and none takes an event back (R34, R76). -/
theorem exec_extendsSession {i : Instr} {s t : State} (h : exec i s = .next t) : ExtendsSession s t := by
  have hs : ExtendsSession s s := ⟨rfl, rfl, rfl, List.prefix_rfl⟩
  exact ((extendsSession_kept s).toPrinting fun _ _ _ hu => ⟨hu.input, hu.pos, hu.cfg, hu.events⟩).exec h hs
    (fun _ _ => ⟨rfl, rfl, rfl, List.prefix_rfl⟩)
    (fun _ _ => ⟨rfl, rfl, rfl, List.prefix_rfl⟩)
    (fun _ _ => ⟨rfl, rfl, rfl, List.prefix_rfl⟩)
    (fun _ => ⟨rfl, rfl, rfl, List.prefix_rfl⟩)
    (fun _ => ⟨rfl, rfl, rfl, List.prefix_append _ _⟩)

/-- Settles O16: the step takes its byte, and then no instruction touches the port. -/
theorem stepTakesOneByteAndAddsEvents : Obligations.StepTakesOneByteAndAddsEvents := by
  unfold Obligations.StepTakesOneByteAndAddsEvents
  intro s t hstep
  obtain ⟨b, rest, hinput, hexec⟩ := step_next hstep
  obtain ⟨input, pos, cfg, evs, hevs⟩ := exec_extendsSession hexec
  exact ⟨⟨b, by rw [hinput, input, takeByte_input]⟩, pos, cfg, evs, hevs.symm⟩

/-- A flag that no drawing operation writes keeps its value `v`. -/
theorem flag_kept {p : State → Bool} {v : Bool} (hput : ∀ s b, p (putCol s b) = p s) (hflush : ∀ s, p (flush s) = p s)
    (hwarn : ∀ s c i, p (raiseWarn s c i) = p s) (htext : ∀ s cp, p (appendText s cp) = p s)
    (hcontrol : ∀ s m r, p { s with mode := m, rem := r } = p s) : KeptByPrinting fun s => p s = v :=
  have drawing : KeptByDrawing fun s => p s = v :=
    { putCol := fun s b h => (hput s b).trans h
      flush := fun s h => (hflush s).trans h
      warn := fun s c i h => (hwarn s c i).trans h
      text := fun s cp h => (htext s cp).trans h }
  drawing.toPrinting fun s m r h => (hcontrol s m r).trans h

/-- Settles O25: drawing writes no flag and a flag code writes its own, so an instruction that changes a flag is one of its
two codes, RESET or SELF_TEST. -/
theorem flagsChangeOnlyByTheirCodes : Obligations.FlagsChangeOnlyByTheirCodes := by
  unfold Obligations.FlagsChangeOnlyByTheirCodes
  intro i s t h
  have hdw := flag_kept (v := s.dw) putCol_dw flush_dw raiseWarn_dw appendText_dw fun _ _ _ => rfl
  have hul := flag_kept (v := s.ul) putCol_ul flush_ul raiseWarn_ul appendText_ul fun _ _ _ => rfl
  have halt := flag_kept (v := s.alt) putCol_alt flush_alt raiseWarn_alt appendText_alt fun _ _ _ => rfl
  refine ⟨fun hne => ?_, fun hne => ?_, fun hne => ?_⟩
  · by_contra hi
    exact hne (hdw.exec h rfl (by tauto) (fun _ _ => rfl) (fun _ _ => rfl) (by tauto) (by tauto))
  · by_contra hi
    exact hne (hul.exec h rfl (fun _ _ => rfl) (by tauto) (fun _ _ => rfl) (by tauto) (by tauto))
  · by_contra hi
    exact hne (halt.exec h rfl (fun _ _ => rfl) (fun _ _ => rfl) (by tauto) (by tauto) (by tauto))

/-- PutCol writes the current column and moves past it (R70). -/
theorem BlankAhead.putCol {s : State} (hwf : PageCanonical s) (h : BlankAhead s) (v : Byte) : BlankAhead (putCol s v) := by
  intro c hc
  have hcol := putCol_col s v
  simp only [pageWidth] at *
  have := s.col.isLt
  rw [putCol_read s hwf, if_neg (by simp only [pageWidth]; omega)]
  exact h c (by omega)

theorem blankAhead_flush (s : State) : BlankAhead (flush s) := fun _ _ => rfl

theorem blankAhead_kept : KeptByDrawing fun s => PageCanonical s ∧ BlankAhead s where
  putCol _ v h := ⟨putCol_wf h.1 v, h.2.putCol h.1 v⟩
  flush s _ := ⟨rfl, blankAhead_flush s⟩
  warn _ _ _ h := h
  text _ _ h := h

/-- Settles O42: columns are written where the column counter stands, and besides a flush, which blanks the page, only a
RESET sets the counter back. -/
theorem onlyResetLeavesStalePixels : Obligations.OnlyResetLeavesStalePixels := by
  unfold Obligations.OnlyResetLeavesStalePixels
  intro i s t hwf hblank h
  by_cases hzero : i = .reset ∧ s.cfg.resetColumn = .zero
  · exact .inl hzero
  right
  refine ((blankAhead_kept.toPrinting fun _ _ _ hu => hu).exec h ⟨hwf, hblank⟩
    (fun _ _ => ⟨hwf, hblank⟩) (fun _ _ => ⟨hwf, hblank⟩) (fun _ _ => ⟨hwf, hblank⟩)
    (fun hi => ⟨hwf, ?_⟩) (fun _ => ⟨rfl, blankAhead_flush _⟩)).2
  have hkeep : resetCol s = s.col := by
    unfold resetCol
    cases hr : s.cfg.resetColumn with
    | zero => exact absurd ⟨hi, hr⟩ hzero
    | keep => rfl
  intro c hc
  rw [doReset_col, hkeep] at hc
  exact hblank c hc

/-- Settles O12: STATUS is the fields one above the other, of widths 2, 8, 1, 1, 1 and 8. -/
theorem statusHoldsTheFields : Obligations.StatusHoldsTheFields := by
  unfold Obligations.StatusHoldsTheFields
  intro s
  have hcol := s.col.isLt
  unfold status
  refine ⟨?mode, ?rem, ?dw, ?ul, ?alt, ?col⟩
  case mode =>
    rw [BitVec.extractLsb'_append_eq_right]
    cases s.mode <;> rfl
  case rem => rw [BitVec.extractLsb'_append_eq_of_le (by decide), BitVec.extractLsb'_append_eq_right]
  case dw | ul | alt =>
    simp only [BitVec.getLsbD_append]
    simp
  case col =>
    iterate 5 rw [BitVec.extractLsb'_append_eq_of_le (by decide)]
    rw [BitVec.extractLsb'_eq_self, BitVec.toNat_ofNat]
    omega

/-- Settles O13: the construction values are the fields of `State.reset`. -/
theorem constructionValues : Obligations.ConstructionValues := by
  unfold Obligations.ConstructionValues AtConstruction
  exact ⟨⟨rfl, rfl, rfl, rfl, rfl, rfl, Memory.read_nil, rfl⟩, rfl⟩

/-- Settles O40: at construction the page and the text are empty, the count is 0 in TEXT, and nothing was emitted. -/
theorem constructionIsLegal : Obligations.ConstructionIsLegal := by
  unfold Obligations.ConstructionIsLegal
  have hcount : CountOk State.reset := .of_idle (by decide) rfl
  refine ⟨⟨Memory.wf_nil, hcount.idle, hcount.legal, .inl rfl, ?_⟩, fun c _ => Memory.read_nil c⟩
  intro text bitmap hm
  cases hm

end Sys2Proof.Machine

/-! SUPPORT. Which drawing operations emit a line (C11): a character that fits and a payload byte with room for its copies
emit none. -/

namespace Sys2Proof.Machine

open Sys2Proof

/-- Between `s` and `t` events were added, and no Flush is among them. -/
def AddsNoFlush (s t : State) : Prop :=
  ∃ evs, t.events = s.events ++ evs ∧ ∀ text bitmap, Event.flush text bitmap ∉ evs

theorem AddsNoFlush.of_events_eq {s t : State} (h : t.events = s.events) : AddsNoFlush s t :=
  ⟨[], by rw [h, List.append_nil], fun _ _ => List.not_mem_nil⟩

theorem AddsNoFlush.of_events_append_warn {s t : State} {c : WarnCode} {i : Byte}
    (h : t.events = s.events ++ [.warn c i]) : AddsNoFlush s t :=
  ⟨[.warn c i], h, fun _ _ hm => nomatch List.mem_singleton.mp hm⟩

/-- What was added is determined by the two observations. -/
theorem AddsNoFlush.notMem {s t : State} {evs : List Event} (h : AddsNoFlush s t) (ht : t.events = s.events ++ evs)
    (text : List CodePoint) (bitmap : Memory) : Event.flush text bitmap ∉ evs := by
  obtain ⟨added, hadded, hno⟩ := h
  have hevs : evs = added := List.append_cancel_left (ht.symm.trans hadded)
  exact hevs ▸ hno text bitmap

/-- The fit test written out (R243). -/
theorem wraps_iff (s : State) :
    wraps s = true ↔ s.col.val + (if isFirst s then 0 else padWidth s) + 5 * glyphWidth s > 166 := by
  unfold wraps neededColumns leadWidth
  rw [decide_eq_true_iff, Nat.add_assoc]

/-- A character that fits emits at most its warning (R130, R243, R246). -/
theorem printChar_addsNoFlush {s : State} (hw : wraps s = false) (b : Byte) : AddsNoFlush s (printChar s b) := by
  unfold printChar
  split
  · exact .of_events_append_warn (raiseWarn_events s .unmappable b)
  · refine .of_events_eq ?_
    rw [appendText_events, placeGlyph_of_fits hw, afterPad_events]
    exact putCols_field State.events (fun t v => putCol_events t v) s _

/-- The header emits at most the warning of its length (R180). -/
theorem graphicsHeader_addsNoFlush (s : State) (n : Byte) : AddsNoFlush s (graphicsHeader s n) := by
  rw [graphicsHeader_eq]
  unfold checkLength
  split
  · exact .of_events_append_warn (raiseWarn_events s .gfxLength n)
  · exact .of_events_eq rfl

theorem lineFull_iff (s : State) : lineFull s = true ↔ s.col.val = 166 := by
  have := s.col.isLt
  unfold lineFull
  rw [decide_eq_true_iff, pageWidth]
  omega

/-- The second copy of a doubled column forces a flush only on a full line and under FLUSH_THEN_WRITE (R203). -/
theorem duplicateRoom_of_room {s : State} (h : ¬ (s.col.val = 166 ∧ s.cfg.dupOverflow = .flushThenWrite)) :
    duplicateRoom s = s := by
  refine if_neg ?_
  rwa [Bool.and_eq_true, lineFull_iff, beq_iff_eq]

/-- A payload byte with room for what it draws emits nothing (R202, R203). -/
theorem drawPayload_events_of_room {s : State} (hcol : s.col.val ≠ 166)
    (hdup : ¬ (s.dw = true ∧ s.col.val = 165 ∧ s.cfg.dupOverflow = .flushThenWrite)) (b : Byte) :
    (drawPayload s b).events = s.events := by
  unfold drawPayload
  simp only [if_neg fun hf => hcol ((lineFull_iff s).mp hf), putCol_dw]
  split
  · rename_i hdw
    have hroom : ¬ ((putCol s (columnValue s.ul b)).col.val = 166 ∧
        (putCol s (columnValue s.ul b)).cfg.dupOverflow = .flushThenWrite) := by
      rintro ⟨hfull, hpolicy⟩
      rw [putCol_col, pageWidth] at hfull
      rw [putCol_cfg] at hpolicy
      exact hdup ⟨hdw, by omega, hpolicy⟩
    rw [duplicateRoom_of_room hroom, putCol_events, putCol_events]
  · exact putCol_events s _

end Sys2Proof.Machine

/-! SUPPORT. The end of the stream (R76), and the selections, widths and tests of a line in one equation or `↔` each. -/

namespace Sys2Proof.Machine

open Sys2Proof

/-- Without an offered byte nothing is fetched: the end of the stream (R76). -/
theorem fetch_of_input_nil {s : State} (h : s.input = []) : fetch s = .error .endOfStream := by
  simp only [fetch, h, decodeStream]

/-- The charset selection as a choice by the model flag and then the alternate flag (R126). -/
theorem charsetSel_eq (cfg : Config) (m a : Bool) :
    charsetSel cfg m a =
      if m then (if a then cfg.charsetModel1 else cfg.charsetModel0) else if a then .alt else .native := by
  cases m <;> cases a <;> rfl

/-- The font selection as a choice by the model flag and then the alternate flag (R127). -/
theorem fontSel_eq (cfg : Config) (m a : Bool) :
    fontSel cfg m a =
      if m then (if a then cfg.fontSel.m1a1 else cfg.fontSel.m1a0)
      else if a then cfg.fontSel.m0a1 else cfg.fontSel.m0a0 := by
  cases m <;> cases a <;> rfl

/-- A padding column is doubled only in double width and under DOUBLED (R243, D13). -/
theorem padWidth_eq (s : State) :
    padWidth s = if s.dw = true ∧ s.cfg.padDouble = .doubled then 2 else 1 := by
  unfold padWidth glyphWidth
  cases s.cfg.padDouble with
  | doubled => simp
  | single => simp

theorem isFirst_iff_of_columnZero {s : State} (h : s.cfg.firstTest = .columnZero) :
    isFirst s = true ↔ s.col.val = 0 := by
  simp only [isFirst, h, beq_iff_eq]

theorem isFirst_iff_of_textEmpty {s : State} (h : s.cfg.firstTest = .textEmpty) :
    isFirst s = true ↔ s.text = [] := by
  simp only [isFirst, h, List.isEmpty_iff]

theorem unmappable_iff (cfg : Config) (t : Charset) (b : Byte) :
    unmappable cfg t b = true ↔ (t, b) ∈ cfg.unmappable :=
  List.contains_iff_mem

end Sys2Proof.Machine

/-! The statements of 20_memory.md. -/

namespace Sys2Proof.Machine

open Sys2Proof

/-- Settles O44: a character that fits, a payload byte with room and every instruction that is no terminator and no self-test
add no Flush. -/
theorem flushesOnlyAtTheirPoints : Obligations.FlushesOnlyAtTheirPoints := by
  unfold Obligations.FlushesOnlyAtTheirPoints
  intro i s t evs text bitmap h hevs hmem
  have hflush : ¬ AddsNoFlush s t := fun hno => hno.notMem hevs text bitmap hmem
  cases i with
  | lf => exact .inl rfl
  | eol => exact .inr (.inl rfl)
  | selfTest => exact .inr (.inr (.inl rfl))
  | char b =>
    cases h
    have hwraps : wraps s = true := by
      by_contra hfits
      exact hflush (printChar_addsNoFlush (Bool.eq_false_iff.mpr hfits) b)
    exact .inr (.inr (.inr (.inl ⟨b, rfl, (wraps_iff s).mp hwraps⟩)))
  | gfxColumn p =>
    cases h
    refine .inr (.inr (.inr (.inr ⟨p, rfl, ?_⟩)))
    by_contra hroom
    obtain ⟨hcol, hdup⟩ := not_or.mp hroom
    exact hflush (.of_events_eq ((countDown_events _).trans (drawPayload_events_of_room hcol hdup p)))
  | graphicsMode n =>
    obtain ⟨_, rfl⟩ := exec_graphicsMode_next h
    exact absurd (graphicsHeader_addsNoFlush s n) hflush
  | escIntro | reset | startDoubleWide | stopDoubleWide | startUnderline | stopUnderline | startAltCharset
    | stopAltCharset =>
    cases h
    exact absurd (.of_events_eq rfl) hflush

/-- Settles O15: the step refuses because nothing is fetched. -/
theorem noStepWithoutByte : Obligations.NoStepWithoutByte := by
  unfold Obligations.NoStepWithoutByte
  intro s h
  simp only [step, fetch_of_input_nil h]

/-- Settles O48, from one lemma per name; the write policies, the padding values and the glyph width are their
definitions. -/
theorem lineRulesWrittenOut : Obligations.LineRulesWrittenOut := by
  unfold Obligations.LineRulesWrittenOut
  refine ⟨fun _ _ => ⟨rfl, rfl⟩, ⟨rfl, rfl⟩, fun s => ?_⟩
  exact ⟨charsetSel_eq s.cfg s.cfg.modelFlag s.alt, fontSel_eq s.cfg s.cfg.modelFlag s.alt, rfl, padWidth_eq s,
    isFirst_iff_of_columnZero, isFirst_iff_of_textEmpty, unmappable_iff s.cfg⟩

end Sys2Proof.Machine

/-! SUPPORT. The escape map: the five open codes are exactly the codes bound to the open bytes (R96, R141), so a code and
its byte determine each other. -/

namespace Sys2Proof

/-- The open codes, listed. -/
def OpenCode.all : List OpenCode := [.selfTest, .startUnderline, .stopUnderline, .startAltCharset, .stopAltCharset]

theorem OpenCode.mem_all (k : OpenCode) : k ∈ OpenCode.all := by
  cases k <;> decide

/-- Five different codes out of five leave none unbound (R141). -/
theorem EscMap.mem_codes (e : EscMap) (k : OpenCode) : k = e.f8 ∨ k = e.f9 ∨ k = e.fa ∨ k = e.fb ∨ k = e.fe := by
  have hsub : List.Subperm [e.f8, e.f9, e.fa, e.fb, e.fe] OpenCode.all :=
    e.bijective.subperm fun k _ => OpenCode.mem_all k
  have hperm := hsub.perm_of_length_le (Nat.le_refl 5)
  simpa only [List.mem_cons, List.not_mem_nil, or_false] using hperm.mem_iff.mpr (OpenCode.mem_all k)

section Bytes

variable (e : EscMap)

@[simp] theorem EscMap.byteOf_f8 : e.byteOf e.f8 = 0xF8#8 := if_pos rfl

@[simp] theorem EscMap.byteOf_f9 : e.byteOf e.f9 = 0xF9#8 := by
  have h := e.bijective
  simp_all [EscMap.byteOf]

@[simp] theorem EscMap.byteOf_fa : e.byteOf e.fa = 0xFA#8 := by
  have h := e.bijective
  simp_all [EscMap.byteOf]

@[simp] theorem EscMap.byteOf_fb : e.byteOf e.fb = 0xFB#8 := by
  have h := e.bijective
  simp_all [EscMap.byteOf]

@[simp] theorem EscMap.byteOf_fe : e.byteOf e.fe = 0xFE#8 := by
  have h := e.bijective
  simp_all [EscMap.byteOf]

@[simp] theorem resolve_F8 : resolve e 0xF8#8 = e.f8.toEscape := rfl

@[simp] theorem resolve_F9 : resolve e 0xF9#8 = e.f9.toEscape := rfl

@[simp] theorem resolve_FA : resolve e 0xFA#8 = e.fa.toEscape := rfl

@[simp] theorem resolve_FB : resolve e 0xFB#8 = e.fb.toEscape := rfl

@[simp] theorem resolve_FC : resolve e 0xFC#8 = .stopDoubleWide := rfl

@[simp] theorem resolve_FD : resolve e 0xFD#8 = .startDoubleWide := rfl

@[simp] theorem resolve_FE : resolve e 0xFE#8 = e.fe.toEscape := rfl

@[simp] theorem resolve_FF : resolve e 0xFF#8 = .reset := rfl

/-- A byte outside the reserved set is a graphics length (R97, R143). -/
theorem resolve_of_lt {b : Byte} (h : b.toNat < 0xF8) : resolve e b = .graphicsMode b := by
  refine if_neg ?_
  rw [isReserved, decide_eq_true_iff]
  omega

/-- The reserved set, byte by byte (R141). -/
theorem reserved_cases {b : Byte} (h : 0xF8 ≤ b.toNat) :
    b = 0xF8#8 ∨ b = 0xF9#8 ∨ b = 0xFA#8 ∨ b = 0xFB#8 ∨ b = 0xFC#8 ∨ b = 0xFD#8 ∨ b = 0xFE#8 ∨ b = 0xFF#8 := by
  bv_omega

theorem byteOf_reserved (k : OpenCode) : 0xF8 ≤ (e.byteOf k).toNat := by
  rcases e.mem_codes k with rfl | rfl | rfl | rfl | rfl <;> simp

/-- The byte bound to an open code resolves to it (R96). -/
theorem resolve_byteOf (k : OpenCode) : resolve e (e.byteOf k) = k.toEscape := by
  rcases e.mem_codes k with rfl | rfl | rfl | rfl | rfl <;> simp

@[simp] theorem encodeByte_toEscape (k : OpenCode) : encodeByte e k.toEscape.toInstr = e.byteOf k := by
  cases k <;> rfl

@[simp] theorem encodeByte_reset : encodeByte e EscapeCode.reset.toInstr = 0xFF#8 := rfl

@[simp] theorem encodeByte_startDoubleWide : encodeByte e EscapeCode.startDoubleWide.toInstr = 0xFD#8 := rfl

@[simp] theorem encodeByte_stopDoubleWide : encodeByte e EscapeCode.stopDoubleWide.toInstr = 0xFC#8 := rfl

end Bytes

end Sys2Proof

/-! SUPPORT. Decoding and encoding undo each other, mode by mode (R95). -/

namespace Sys2Proof.Machine

open Sys2Proof

/-- A resolved code is encoded by the byte it was resolved from: on the reserved bytes because no code has two of them,
elsewhere because the length is the byte. -/
theorem encodeByte_resolve (e : EscMap) (b : Byte) : encodeByte e (resolve e b).toInstr = b := by
  by_cases hb : b.toNat < 0xF8
  · rw [resolve_of_lt e hb]
    rfl
  · rcases reserved_cases (Nat.le_of_not_lt hb) with rfl | rfl | rfl | rfl | rfl | rfl | rfl | rfl <;> simp

/-- A code's byte resolves to the code, for every code that a byte can resolve to. -/
theorem resolve_encodeByte (e : EscMap) {c : EscapeCode} (h : c.toInstr.wf = true) :
    resolve e (encodeByte e c.toInstr) = c := by
  cases c with
  | reset | startDoubleWide | stopDoubleWide => rfl
  | selfTest => exact resolve_byteOf e .selfTest
  | startUnderline => exact resolve_byteOf e .startUnderline
  | stopUnderline => exact resolve_byteOf e .stopUnderline
  | startAltCharset => exact resolve_byteOf e .startAltCharset
  | stopAltCharset => exact resolve_byteOf e .stopAltCharset
  | graphicsMode n => exact resolve_of_lt e (of_decide_eq_true h)

/-- The instructions that arrive in ESCAPE_PENDING are the escape codes (R170). -/
theorem exists_toInstr_of_arrivalMode {i : Instr} (h : i.arrivalMode = .escapePending) :
    ∃ c : EscapeCode, i = c.toInstr := by
  cases i with
  | reset => exact ⟨.reset, rfl⟩
  | selfTest => exact ⟨.selfTest, rfl⟩
  | startDoubleWide => exact ⟨.startDoubleWide, rfl⟩
  | stopDoubleWide => exact ⟨.stopDoubleWide, rfl⟩
  | startUnderline => exact ⟨.startUnderline, rfl⟩
  | stopUnderline => exact ⟨.stopUnderline, rfl⟩
  | startAltCharset => exact ⟨.startAltCharset, rfl⟩
  | stopAltCharset => exact ⟨.stopAltCharset, rfl⟩
  | graphicsMode n => exact ⟨.graphicsMode n, rfl⟩
  | escIntro | lf | eol | char | gfxColumn => cases h

theorem toInstr_arrivalMode (c : EscapeCode) : c.toInstr.arrivalMode = .escapePending := by
  cases c <;> rfl

/-- A byte that TEXT does not intercept is a character (R91). -/
theorem decodeText_of_charOperandOk {b : Byte} (h : charOperandOk b = true) : decodeText b = .char b := by
  simp only [charOperandOk, Bool.and_eq_true, bne_iff_ne] at h
  obtain ⟨⟨hesc, hlf⟩, heol⟩ := h
  simp only [decodeText, if_neg hesc, if_neg hlf, if_neg heol]

/-- An intercepted byte is its terminator or the introducer, and any other is its own operand (R91). -/
theorem encodeByte_decodeText (e : EscMap) (b : Byte) : encodeByte e (decodeText b) = b := by
  by_cases hesc : b = escByte
  · rw [hesc]; rfl
  by_cases hlf : b = lfByte
  · rw [hlf]; rfl
  by_cases heol : b = eolByte
  · rw [heol]; rfl
  · simp only [decodeText, if_neg hesc, if_neg hlf, if_neg heol, encodeByte]

theorem encodeByte_decode (e : EscMap) (m : Mode) (b : Byte) : encodeByte e (decode e m b) = b := by
  cases m with
  | text => exact encodeByte_decodeText e b
  | escapePending => exact encodeByte_resolve e b
  | graphics => rfl

theorem decode_encodeByte (e : EscMap) {i : Instr} (h : i.wf = true) : decode e i.arrivalMode (encodeByte e i) = i := by
  cases hm : i.arrivalMode with
  | escapePending =>
    obtain ⟨c, rfl⟩ := exists_toInstr_of_arrivalMode hm
    exact congrArg EscapeCode.toInstr (resolve_encodeByte e h)
  | text =>
    cases i with
    | escIntro | lf | eol => rfl
    | char b => exact decodeText_of_charOperandOk h
    | _ => cases hm
  | graphics =>
    cases i with
    | gfxColumn p => rfl
    | _ => cases hm

/-- The unit of an escape code or a header is the introducer and the code's byte (R92, R93). -/
theorem encode_of_escapePending (e : EscMap) {i : Instr} (h : i.arrivalMode = .escapePending) :
    encode e i = [escByte, encodeByte e i] := by
  simp only [encode, h]

/-- The introducer offered in TEXT is taken and arms the escape (R151). -/
theorem step_introducer {s : State} {rest : List Byte} (hm : s.mode = .text) (hin : s.input = escByte :: rest) :
    step s = .next (setMode (takeByte s rest) .escapePending) := by
  rw [step_of_input_cons hin, hm]
  rfl

end Sys2Proof.Machine

/-! SUPPORT. The description elements (R103 to R106): the name lookup as membership in the table of names, the bytes of a
text run and of a description. -/

namespace Sys2Proof.Machine

open Sys2Proof

/-- No two names are alike, so what is found under a folded name is the one entry that has it (R105). -/
theorem lookupEscape_eq_some_iff (name : List Char) (c : EscapeCode) :
    lookupEscape name = some c ↔ (name.map Char.toLower, c) ∈ escapeNames := by
  have hnames : (escapeNames.map Prod.fst).Nodup := by decide
  unfold lookupEscape
  constructor
  · intro h
    obtain ⟨p, hfind, rfl⟩ := Option.map_eq_some_iff.mp h
    have hkey : p.1 = name.map Char.toLower := by simpa using List.find?_some hfind
    exact hkey ▸ List.mem_of_find?_eq_some hfind
  · intro hmem
    cases hfind : escapeNames.find? fun p => p.1 == name.map Char.toLower with
    | none => exact absurd hmem (fun hm => by simpa using List.find?_eq_none.mp hfind _ hm)
    | some p =>
      have hkey : p.1 = name.map Char.toLower := by simpa using List.find?_some hfind
      have hp := List.inj_on_of_nodup_map hnames (List.mem_of_find?_eq_some hfind) hmem hkey
      rw [hp]
      rfl

/-- The eight names as R105 spells them. -/
def spelledNames : List (String × EscapeCode) :=
  [("RESET", .reset), ("SELF_TEST", .selfTest), ("START_DOUBLE_WIDE", .startDoubleWide),
   ("STOP_DOUBLE_WIDE", .stopDoubleWide), ("START_UNDERLINE", .startUnderline), ("STOP_UNDERLINE", .stopUnderline),
   ("START_ALT_CHARSET", .startAltCharset), ("STOP_ALT_CHARSET", .stopAltCharset)]

/-- The table of names is R105's, folded to lower case (R106). -/
theorem escapeNames_eq_fold :
    escapeNames = spelledNames.map fun p => (p.1.toList.map Char.toLower, p.2) := by decide

/-- A named code has a byte; GRAPHICS_MODE has no name (R105). -/
theorem lookupEscape_wf {name : List Char} {c : EscapeCode} (h : lookupEscape name = some c) :
    c.toInstr.wf = true := by
  have hall : ∀ p ∈ escapeNames, p.2.toInstr.wf = true := by decide
  exact hall _ ((lookupEscape_eq_some_iff name c).mp h)

theorem txtByte_eq_some_iff (c : Char) (b : Byte) :
    txtByte c = some b ↔ (0x20 ≤ c.toNat ∧ c.toNat ≤ 0x7E) ∧ b = BitVec.ofNat 8 c.toNat := by
  rw [txtByte, Option.ite_none_right_eq_some, Option.some.injEq, eq_comm (a := b)]

/-- A text run has bytes when each of its characters has one (R103, R104). -/
theorem mapM_txtByte_eq_some_iff (s : List Char) (bytes : List Byte) :
    s.mapM txtByte = some bytes ↔
      (∀ c ∈ s, 0x20 ≤ c.toNat ∧ c.toNat ≤ 0x7E) ∧ bytes = s.map fun c => BitVec.ofNat 8 c.toNat := by
  induction s generalizing bytes with
  | nil => simp [eq_comm]
  | cons c s ih =>
    simp only [List.mapM_cons, Option.bind_eq_bind, Option.bind_eq_some_iff, txtByte_eq_some_iff, ih]
    constructor
    · rintro ⟨b, ⟨hc, rfl⟩, bs, ⟨hs, rfl⟩, hbytes⟩
      exact ⟨List.forall_mem_cons.mpr ⟨hc, hs⟩, (Option.some.inj hbytes).symm⟩
    · rintro ⟨hall, rfl⟩
      obtain ⟨hc, hs⟩ := List.forall_mem_cons.mp hall
      exact ⟨_, ⟨hc, rfl⟩, _, ⟨hs, rfl⟩, rfl⟩

theorem gfx_bytes_eq_some_iff (e : EscMap) (n : Byte) (payload bytes : List Byte) :
    (DescItem.gfx n payload).bytes e = some bytes ↔
      n.toNat < 0xF8 ∧ payload.length = n.toNat ∧ bytes = escByte :: n :: payload := by
  rw [DescItem.bytes, Option.ite_none_right_eq_some, Option.some.injEq, eq_comm (a := bytes), and_assoc]

/-- The bytes of a description are those of its first element followed by those of the rest (R284). -/
theorem describe_cons_eq_some_iff (e : EscMap) (item : DescItem) (items : List DescItem) (bytes : List Byte) :
    describe e (item :: items) = some bytes ↔
      ∃ first rest, item.bytes e = some first ∧ describe e items = some rest ∧ bytes = first ++ rest := by
  unfold describe
  rw [List.mapM_cons]
  cases item.bytes e with
  | none => simp
  | some first =>
    cases items.mapM (DescItem.bytes e) with
    | none => simp
    | some rest => simp [eq_comm]

end Sys2Proof.Machine

/-! The statements of 30_encoding.md. -/

namespace Sys2Proof.Machine

open Sys2Proof

/-- Settles O4: an escape code's byte resolves to the code, TEXT intercepts no operand of CHAR, and GRAPHICS
reads every byte. -/
theorem decodeOfEncode : Obligations.DecodeOfEncode := by
  unfold Obligations.DecodeOfEncode
  intro e i h
  exact decode_encodeByte e h

/-- Settles O5: what is decoded is well formed, belongs to the mode, and encodes back mode by mode. -/
theorem encodeOfDecode : Obligations.EncodeOfDecode := by
  unfold Obligations.EncodeOfDecode
  intro e m b
  exact ⟨decode_wf e m b, decode_arrivalMode e m b, encodeByte_decode e m b⟩

/-- Settles O2: TEXT's chain of tests and GRAPHICS are the decoder's own, and ESCAPE_PENDING is what the byte resolves to. -/
theorem classificationOfEveryByte : Obligations.ClassificationOfEveryByte := by
  unfold Obligations.ClassificationOfEveryByte
  intro e b
  have hopen (k : OpenCode) : 0xF8 ≤ (e.byteOf k).toNat ∧ resolve e (e.byteOf k) = k.toEscape ∧
      decode e .escapePending (e.byteOf k) = k.toEscape.toInstr :=
    ⟨byteOf_reserved e k, resolve_byteOf e k, congrArg EscapeCode.toInstr (resolve_byteOf e k)⟩
  exact ⟨rfl, fun hb => congrArg EscapeCode.toInstr (resolve_of_lt e hb), rfl, rfl, rfl, hopen, rfl, rfl⟩

/-- Settles O6: the introducer's step only takes its byte and sets the mode, and the code's byte decodes back. -/
theorem escapeUnitRunsInTwoSteps : Obligations.EscapeUnitRunsInTwoSteps := by
  unfold Obligations.EscapeUnitRunsInTwoSteps
  intro s i rest hwf harrival hm hin
  rw [encode_of_escapePending _ harrival] at hin
  refine ⟨_, step_introducer hm hin, rfl, ?_⟩
  have hdecode : decode s.cfg.escMap .escapePending (encodeByte s.cfg.escMap i) = i :=
    harrival ▸ decode_encodeByte s.cfg.escMap hwf
  rw [step_of_input_cons rfl]
  exact congrArg (exec · _) hdecode

/-- Settles O7: a name stands for a code that has a byte, and that byte resolves to the code. -/
theorem describedEscapesResolve : Obligations.DescribedEscapesResolve := by
  unfold Obligations.DescribedEscapesResolve
  intro e
  refine ⟨fun name c h => ?_, gfx_bytes_eq_some_iff e, fun n hn => resolve_of_lt e hn⟩
  refine ⟨encodeByte e c.toInstr, ?_, resolve_encodeByte e (lookupEscape_wf h)⟩
  rw [DescItem.bytes, h, Option.map_some, encode_of_escapePending e (toInstr_arrivalMode c)]

/-- Settles O1: closed words under the default map. -/
theorem sampleWordsDecode : Obligations.SampleWordsDecode := by
  unfold Obligations.SampleWordsDecode
  decide

/-- Settles O8: the eight names, folded, are the keys of the table, and the lookup reads a name only folded. -/
theorem nameLookupIgnoresCase : Obligations.NameLookupIgnoresCase := by
  unfold Obligations.NameLookupIgnoresCase
  refine ⟨fun name c => ?_, fun a b h => ?_⟩
  · rw [lookupEscape_eq_some_iff, escapeNames_eq_fold]
    show (name.map Char.toLower, c) ∈ spelledNames.map _ ↔ ∃ p ∈ spelledNames, _
    simp only [List.mem_map, Prod.mk.injEq, eq_comm]
  · unfold lookupEscape
    rw [h]

/-- Settles O49: LF, EOL and HEX are their definitions; a text run and a description go element by element. -/
theorem describedElementsHaveTheirBytes : Obligations.DescribedElementsHaveTheirBytes := by
  unfold Obligations.DescribedElementsHaveTheirBytes
  intro e
  exact ⟨rfl, rfl, fun _ => rfl, mapM_txtByte_eq_some_iff, rfl, describe_cons_eq_some_iff e⟩

end Sys2Proof.Machine

/-! SUPPORT. The character codec (R121 to R129), one lemma per branch of the two tables, and the dropped character
(R130). -/

namespace Sys2Proof.Machine

open Sys2Proof

theorem isPrintable_iff (n : Nat) : isPrintable n = true ↔ 0x20 ≤ n ∧ n ≤ 0x7E := decide_eq_true_iff

theorem isControl_iff (n : Nat) : isControl n = true ↔ n ≤ 0x1F := decide_eq_true_iff.trans Nat.lt_succ_iff

/-- A code point below 256 is that of the byte of the same number. -/
theorem byteCodePoint_ofNat {cp : CodePoint} (h : cp.val < 256) : byteCodePoint (BitVec.ofNat 8 cp.val) = cp :=
  Fin.ext (Nat.mod_eq_of_lt h)

/-- Printable ASCII is fixed in every table (R121). -/
theorem decodeChar_of_printable (t : Charset) {b : Byte} (h : isPrintable b.toNat = true) :
    decodeChar t b = byteCodePoint b := if_pos h

/-- C0 is fixed in every table but FOCAL (R122). -/
theorem decodeChar_of_control {t : Charset} {b : Byte} (h : isControl b.toNat = true) (ht : t ≠ .focal) :
    decodeChar t b = byteCodePoint b := by
  have hc : (isControl b.toNat && t != .focal) = true := by simp [h, ht]
  unfold decodeChar
  rw [if_pos hc, ite_self]

/-- Printable ASCII encodes to itself (R125 (b)). -/
theorem encodeChar_of_printable (t : Charset) {cp : CodePoint} (h : isPrintable cp.val = true) :
    encodeChar t cp = some (BitVec.ofNat 8 cp.val) := if_pos h

/-- Outside printable ASCII the free choice answers, and only where the table decodes it back (R125 (a), log 7). -/
theorem encodeChar_of_not_printable (t : Charset) {cp : CodePoint} (h : ¬ isPrintable cp.val = true) :
    encodeChar t cp = (Config.freeEncode t cp).filter fun b => decodeChar t b = cp := by
  unfold encodeChar
  rw [if_neg h]
  cases Config.freeEncode t cp with
  | none => rfl
  | some b => simp only [Option.filter_some, decide_eq_true_eq]

/-- Decoding undoes encoding (R125 (a)). -/
theorem decodeChar_of_encodeChar {t : Charset} {cp : CodePoint} {b : Byte} (h : encodeChar t cp = some b) :
    decodeChar t b = cp := by
  by_cases hp : isPrintable cp.val = true
  · rw [encodeChar_of_printable t hp, Option.some.injEq] at h
    obtain ⟨-, hle⟩ := (isPrintable_iff _).mp hp
    have hcp : byteCodePoint b = cp := h ▸ byteCodePoint_ofNat (by omega)
    have hb : isPrintable b.toNat = true := by
      rwa [← hcp] at hp
    rw [decodeChar_of_printable t hb, hcp]
  · rw [encodeChar_of_not_printable t hp, Option.filter_eq_some_iff] at h
    exact of_decide_eq_true h.2

/-- An unmappable character only warns (R130, R246). -/
theorem printChar_of_unmappable {s : State} {b : Byte} (h : unmappable s.cfg (activeCharset s) b = true) :
    printChar s b = raiseWarn s .unmappable b := if_pos h

end Sys2Proof.Machine

/-! The statements of 40_charset_codec.md. -/

namespace Sys2Proof.Machine

open Sys2Proof

/-- Settles O9: both ranges are branches of the table that answer the byte's own number, C0 in the tables that are not
FOCAL. -/
theorem decodeTablesFixedRanges : Obligations.DecodeTablesFixedRanges := by
  unfold Obligations.DecodeTablesFixedRanges
  refine ⟨fun t b hlo hhi => ?_, fun b hb => ?_⟩
  · exact congrArg Fin.val (decodeChar_of_printable t ((isPrintable_iff _).mpr ⟨hlo, hhi⟩))
  · have hctl : isControl b.toNat = true := (isControl_iff _).mpr hb
    exact ⟨congrArg Fin.val (decodeChar_of_control hctl (by decide)),
      congrArg Fin.val (decodeChar_of_control hctl (by decide))⟩

/-- Settles O10: a printable code point's byte is fixed in both directions, and any other answer was checked against
the table. -/
theorem encodeIsPartialInverse : Obligations.EncodeIsPartialInverse := by
  unfold Obligations.EncodeIsPartialInverse
  intro t
  exact ⟨fun cp b h => decodeChar_of_encodeChar h,
    fun cp hlo hhi => encodeChar_of_printable t ((isPrintable_iff _).mpr ⟨hlo, hhi⟩)⟩

/-- Settles O19: CHAR is PrintChar, whose unmappable branch is the warning alone. -/
theorem unmappableCharIsDropped : Obligations.UnmappableCharIsDropped := by
  unfold Obligations.UnmappableCharIsDropped
  intro s b h
  rw [exec_char, printChar_of_unmappable h]
  rfl

end Sys2Proof.Machine

/-! SUPPORT. The lookup at index c - 0xF8 (R145), and the operands of GRAPHICS_MODE that are no length (R144, U4). -/

namespace Sys2Proof.Machine

open Sys2Proof

/-- Outside the reserved set the table is not consulted (R143, R145). -/
theorem resolveByIndex_of_lt (e : EscMap) {c : Byte} (h : c.toNat < 0xF8) : resolveByIndex e c = .graphicsMode c :=
  if_neg (Nat.not_le_of_lt h)

/-- On each of the eight reserved bytes the entry at its index is the code that the chain of matches finds (R145). -/
theorem resolveByIndex_of_reserved (e : EscMap) {c : Byte} (h : 0xF8 ≤ c.toNat) : resolveByIndex e c = resolve e c := by
  have hentry : resolveByIndex e c = (escapeTable e).getD (c.toNat - 0xF8) (.graphicsMode c) := if_pos h
  rw [hentry]
  rcases reserved_cases h with rfl | rfl | rfl | rfl | rfl | rfl | rfl | rfl <;> simp [escapeTable]

theorem wf_graphicsMode_iff (n : Byte) : (Instr.graphicsMode n).wf = true ↔ n.toNat ≤ 247 :=
  decide_eq_true_iff.trans Nat.lt_succ_iff

/-- The counterpart of `exec_graphicsMode`: an operand that Resolve cannot produce is refused (U4). -/
theorem exec_graphicsMode_of_gt {n : Byte} (h : 247 < n.toNat) (s : State) :
    exec (.graphicsMode n) s = .refused .lengthNotEncodable :=
  if_neg fun hok => absurd ((wf_graphicsMode_iff n).mp hok) (Nat.not_le_of_lt h)

end Sys2Proof.Machine

/-! The statements of 41_escape_table.md. -/

namespace Sys2Proof.Machine

open Sys2Proof

/-- Settles O3: the two agree on the reserved bytes entry by entry, and every other byte is a length for both. -/
theorem scanAndIndexResolveAlike : Obligations.ScanAndIndexResolveAlike := by
  unfold Obligations.ScanAndIndexResolveAlike
  intro e c
  by_cases hc : c.toNat < 0xF8
  · rw [resolve_of_lt e hc, resolveByIndex_of_lt e hc]
  · exact (resolveByIndex_of_reserved e (Nat.le_of_not_lt hc)).symm

/-- Settles O28: the header refuses what is no length, and what a byte decodes to is well formed. -/
theorem lengthAbove247IsRefused : Obligations.LengthAbove247IsRefused := by
  unfold Obligations.LengthAbove247IsRefused
  refine ⟨fun s n hn => exec_graphicsMode_of_gt hn s, fun e m b n hdecode => ?_⟩
  have hwf : (Instr.graphicsMode n).wf = true := hdecode ▸ decode_wf e m b
  exact (wf_graphicsMode_iff n).mp hwf

end Sys2Proof.Machine


/-! SUPPORT. The bytes that TEXT intercepts (R91), the lengths after the introducer (R97) and the flushed state (R72). -/

namespace Sys2Proof.Machine

open Sys2Proof

/-- After the introducer every byte below the reserved set, a second introducer included, is a length (R95, R151). -/
theorem decode_escapePending_of_lt (e : EscMap) {c : Byte} (h : c.toNat < 0xF8) :
    decode e .escapePending c = .graphicsMode c :=
  congrArg EscapeCode.toInstr (resolve_of_lt e h)

theorem decode_text_escByte (e : EscMap) : decode e .text escByte = .escIntro := decode_encodeByte e (i := .escIntro) rfl

theorem decode_text_lfByte (e : EscMap) : decode e .text lfByte = .lf := decode_encodeByte e (i := .lf) rfl

theorem decode_text_eolByte (e : EscMap) : decode e .text eolByte = .eol := decode_encodeByte e (i := .eol) rfl

/-- The event carries both buffers as they were before the clear (R72). -/
theorem flush_eq (s : State) :
    flush s = { s with text := [], page := [], col := 0, events := s.events ++ [.flush s.text s.page] } := rfl

end Sys2Proof.Machine

/-! The statements of 42_text_mode.md. -/

namespace Sys2Proof.Machine

open Sys2Proof

/-- Settles O17: 0x1B is below the reserved bytes, so after the introducer it is a length like any other. -/
theorem escIntroArmsEscape : Obligations.EscIntroArmsEscape := by
  unfold Obligations.EscIntroArmsEscape
  refine ⟨fun e => ⟨decode_text_escByte e, ?_⟩, fun s => exec_escIntro s⟩
  have hlt : (0x1B#8).toNat < 0xF8 := by decide
  exact decode_escapePending_of_lt e hlt

/-- Settles O18: both terminators are `flush`. -/
theorem terminatorsFlush : Obligations.TerminatorsFlush := by
  unfold Obligations.TerminatorsFlush
  refine ⟨fun e => ⟨decode_text_lfByte e, decode_text_eolByte e⟩, Memory.read_nil, fun s => ⟨?_, ?_⟩⟩
  · rw [exec_lf, flush_eq]
  · rw [exec_eol, exec_lf]

end Sys2Proof.Machine

/-! SUPPORT. The escape codes after the introducer (R170): the header as one update of the state (R180, R181), and the codes
that are no header. -/

namespace Sys2Proof.Machine

open Sys2Proof

theorem lengthInvalid_iff (n : Byte) : lengthInvalid n = true ↔ n.toNat = 0 ∨ n.toNat > 166 := decide_eq_true_iff

/-- Only IMMEDIATE leaves a zero-length header at once (R182). -/
theorem zeroLengthMode_eq (p : GfxZeroPolicy) : zeroLengthMode p = if p = .immediate then .text else .graphics := by
  cases p <;> rfl

/-- The length check writes nothing but the observation (R180). -/
theorem checkLength_eq (s : State) (n : Byte) : checkLength s n = { s with events := (checkLength s n).events } := by
  unfold checkLength
  split <;> rfl

/-- The header as one update: the count is the length, and a bad length is warned of and honoured (R180, R181). -/
theorem graphicsHeader_eq_update (s : State) (n : Byte) :
    graphicsHeader s n =
      { s with
        rem := n
        mode := if n = 0#8 ∧ s.cfg.gfxZero = .immediate then .text else .graphics
        events := s.events ++ if n.toNat = 0 ∨ n.toNat > 166 then [.warn .gfxLength n] else [] } := by
  rw [graphicsHeader_eq, checkLength_eq, checkLength_events, zeroLengthMode_eq, ite_and]
  simp only [lengthInvalid_iff]

/-- Both ends of a header are other modes than the one it arrived in (R170). -/
theorem graphicsHeader_mode_ne (s : State) (n : Byte) : (graphicsHeader s n).mode ≠ .escapePending := by
  rw [graphicsHeader_eq_update]
  simp only
  split
  · decide
  · decide

/-- A reserved byte is no length: the byte of a header is its length, and no header has one above 0xF7 (R97, R144). -/
theorem resolve_ne_graphicsMode (e : EscMap) {b : Byte} (h : 0xF8 ≤ b.toNat) (n : Byte) :
    resolve e b ≠ .graphicsMode n := by
  intro hres
  have hbyte : encodeByte e (resolve e b).toInstr = b := encodeByte_resolve e b
  have hwf : (resolve e b).toInstr.wf = true := resolve_wf e b
  rw [hres] at hbyte hwf
  have hn : n = b := hbyte
  have hle : n.toNat ≤ 247 := (wf_graphicsMode_iff n).mp hwf
  rw [hn] at hle
  omega

/-- Every escape code but a header answers, and leaves TEXT (R170). -/
theorem exec_named_code {c : EscapeCode} (h : ∀ n, c ≠ .graphicsMode n) (s : State) :
    ∃ t, exec c.toInstr s = .next t ∧ t.mode = .text := by
  cases c with
  | graphicsMode n => exact absurd rfl (h n)
  | reset => exact ⟨_, exec_reset s, doReset_mode s⟩
  | selfTest => exact ⟨_, exec_selfTest s, rfl⟩
  | startDoubleWide => exact ⟨_, exec_startDoubleWide s, rfl⟩
  | stopDoubleWide => exact ⟨_, exec_stopDoubleWide s, rfl⟩
  | startUnderline => exact ⟨_, exec_startUnderline s, rfl⟩
  | stopUnderline => exact ⟨_, exec_stopUnderline s, rfl⟩
  | startAltCharset => exact ⟨_, exec_startAltCharset s, rfl⟩
  | stopAltCharset => exact ⟨_, exec_stopAltCharset s, rfl⟩

/-- The reset state in one update; the page and the observation are not among the fields written (R171). -/
theorem doReset_eq (s : State) :
    doReset s =
      { s with mode := .text, rem := 0#8, dw := false, ul := false, alt := false, text := [], col := resetCol s } := rfl

end Sys2Proof.Machine

/-! SUPPORT. Runs over offered bytes: a run goes byte by byte, and in GRAPHICS each byte is drawn and counted (R200, R204). -/

namespace Sys2Proof.Machine

open Sys2Proof

theorem run_zero (s : State) : Host.Core.run core 0 s = .next s := rfl

theorem run_succ_of_step {s t : State} (h : step s = .next t) (k : Nat) :
    Host.Core.run core (k + 1) s = Host.Core.run core k t := by
  have hstep : core.step s = .next t := h
  simp only [Host.Core.run, hstep]

/-- The induction over a run: a property of the bytes still to come and the state, kept by the step that takes the first of
them, holds after any number of them. -/
theorem run_over_bytes {P : List Byte → State → Prop}
    (hstep : ∀ b bs s, P (b :: bs) s → ∃ t, step s = .next t ∧ P bs t) :
    ∀ (k : Nat) (bytes : List Byte) (s : State), k ≤ bytes.length → P bytes s →
      ∃ t, Host.Core.run core k s = .next t ∧ P (bytes.drop k) t := by
  intro k
  induction k with
  | zero => exact fun bytes s _ h => ⟨s, run_zero s, h⟩
  | succ k ih =>
    intro bytes s hk h
    cases bytes with
    | nil => exact absurd hk (Nat.not_succ_le_zero k)
    | cons b bs =>
      obtain ⟨u, hu, hP⟩ := hstep b bs s h
      obtain ⟨t, ht, hPt⟩ := ih bs u (Nat.le_of_succ_le_succ hk) hP
      exact ⟨t, (run_succ_of_step hu k).trans ht, hPt⟩

/-- In GRAPHICS every byte is a column, drawn and then counted (R94, R200). -/
theorem step_graphics {s : State} {b : Byte} {rest : List Byte} (hm : s.mode = .graphics) (hin : s.input = b :: rest) :
    step s = .next (countDown (drawPayload (takeByte s rest) b)) := by
  rw [step_of_input_cons hin, hm]
  rfl

/-- A positive count goes down by one. -/
theorem countDown_rem_of_pos {s : State} (h : 1 ≤ s.rem.toNat) : (countDown s).rem.toNat = s.rem.toNat - 1 := by
  have hless : (s.rem - 1#8).toNat = s.rem.toNat - 1 := by bv_omega
  unfold countDown
  rw [if_pos h]
  simp only
  split
  · exact hless
  · exact hless

/-- The last byte of a count returns to TEXT, and no byte before it changes the mode. -/
theorem countDown_mode_of_pos {s : State} (h : 1 ≤ s.rem.toNat) :
    (countDown s).mode = if s.rem.toNat = 1 then .text else s.mode := by
  have hlast : s.rem - 1#8 = 0#8 ↔ s.rem.toNat = 1 := by bv_omega
  unfold countDown
  rw [if_pos h]
  simp only [hlast]
  split <;> rfl

theorem countDown_of_zero {s : State} (h : s.rem = 0#8) : countDown s = zeroCount s := by
  refine if_neg ?_
  rw [h]
  decide

/-- WRAP_256 has counted one byte of 256 when it sets the count to 255 (R204). -/
theorem zeroCount_of_wrap256 {s : State} (h : s.cfg.gfxZero = .wrap256) : zeroCount s = { s with rem := 255#8 } := by
  simp only [zeroCount, h, zeroCountAction]

/-- NEVER leaves a zero count where it is (R204, U5). -/
theorem zeroCount_of_never {s : State} (h : s.cfg.gfxZero = .never) : zeroCount s = s := by
  simp only [zeroCount, h, zeroCountAction]

/-- The rest of a payload: `bytes` are still to come before `rest`, the count is their number, and the block is in GRAPHICS
until the last of them is taken (R200, R206). -/
structure PayloadPending (rest bytes : List Byte) (s : State) : Prop where
  input : s.input = bytes ++ rest
  count : s.rem.toNat = bytes.length
  mode : s.mode = if bytes.length = 0 then .text else .graphics

theorem PayloadPending.step {rest bs : List Byte} {b : Byte} {s : State} (h : PayloadPending rest (b :: bs) s) :
    ∃ t, step s = .next t ∧ PayloadPending rest bs t := by
  have hmode : s.mode = .graphics := h.mode
  have hinput : s.input = b :: (bs ++ rest) := h.input
  have hcount : s.rem.toNat = bs.length + 1 := h.count
  have hdrawn : (drawPayload (takeByte s (bs ++ rest)) b).rem.toNat = bs.length + 1 := by
    rw [drawPayload_rem, takeByte_rem, hcount]
  have hpos : 1 ≤ (drawPayload (takeByte s (bs ++ rest)) b).rem.toNat := by omega
  refine ⟨_, step_graphics hmode hinput, ?_, ?_, ?_⟩
  · rw [countDown_input, drawPayload_input, takeByte_input]
  · rw [countDown_rem_of_pos hpos, hdrawn, Nat.add_sub_cancel]
  · rw [countDown_mode_of_pos hpos, hdrawn, drawPayload_mode, takeByte_mode, hmode]
    simp only [Nat.add_eq_right]

/-- A run over the first `k` bytes of a payload leaves the others pending. -/
theorem PayloadPending.run {rest bytes : List Byte} {s : State} (h : PayloadPending rest bytes s) {k : Nat}
    (hk : k ≤ bytes.length) : ∃ t, Host.Core.run core k s = .next t ∧ PayloadPending rest (bytes.drop k) t :=
  run_over_bytes (fun _ _ _ hp => hp.step) k bytes s hk h

/-- The first byte of a zero-length payload under WRAP_256 leaves a payload of 255 (R204). -/
theorem payloadPending_of_wrap256 {s : State} {b : Byte} {bs rest : List Byte} (hm : s.mode = .graphics)
    (hp : s.cfg.gfxZero = .wrap256) (hr : s.rem = 0#8) (hlen : bs.length = 255) (hin : s.input = b :: (bs ++ rest)) :
    ∃ t, step s = .next t ∧ PayloadPending rest bs t := by
  have hzero : (drawPayload (takeByte s (bs ++ rest)) b).rem = 0#8 := by rw [drawPayload_rem, takeByte_rem, hr]
  have hpolicy : (drawPayload (takeByte s (bs ++ rest)) b).cfg.gfxZero = .wrap256 := by
    rw [drawPayload_cfg, takeByte_cfg, hp]
  refine ⟨_, step_graphics hm hin, ?_⟩
  rw [countDown_of_zero hzero, zeroCount_of_wrap256 hpolicy]
  refine ⟨?_, ?_, ?_⟩
  · exact drawPayload_input _ b
  · rw [hlen]
    rfl
  · rw [hlen]
    exact (drawPayload_mode _ b).trans hm

/-- The trap of NEVER, with `bytes` still offered: GRAPHICS with a zero count (R182, U5). -/
structure StuckInGraphics (bytes : List Byte) (s : State) : Prop where
  mode : s.mode = .graphics
  policy : s.cfg.gfxZero = .never
  count : s.rem = 0#8
  input : s.input = bytes

/-- No byte leads out of the trap. -/
theorem StuckInGraphics.step {b : Byte} {bs : List Byte} {s : State} (h : StuckInGraphics (b :: bs) s) :
    ∃ t, step s = .next t ∧ StuckInGraphics bs t := by
  have hzero : (drawPayload (takeByte s bs) b).rem = 0#8 := by rw [drawPayload_rem, takeByte_rem, h.count]
  have hpolicy : (drawPayload (takeByte s bs) b).cfg.gfxZero = .never := by
    rw [drawPayload_cfg, takeByte_cfg, h.policy]
  refine ⟨drawPayload (takeByte s bs) b, ?_, ?_, hpolicy, hzero, ?_⟩
  · rw [step_graphics h.mode h.input, countDown_of_zero hzero, zeroCount_of_never hpolicy]
  · rw [drawPayload_mode, takeByte_mode, h.mode]
  · rw [drawPayload_input, takeByte_input]

end Sys2Proof.Machine

/-! SUPPORT. The first and the last events of the self-test sequence (R220, R225). -/

namespace Sys2Proof.Machine

open Sys2Proof

/-- Between the flush at its start and the two at its end, the sequence only adds events. -/
theorem selfTestSequence_eq_flush_flush (s : State) :
    ∃ u, selfTestSequence s = flush (flush u) ∧ (flush s).events <+: u.events := by
  have k := extendsSession_kept (flush s)
  have hstart : ExtendsSession (flush s) (flush s) := ⟨rfl, rfl, rfl, List.prefix_rfl⟩
  unfold selfTestSequence
  exact ⟨_, rfl, (k.runOps _ (k.flush _ (k.flush _ (k.runOps _ (k.selfTestChars hstart))))).events⟩

/-- The sequence emits the line as it was first and an empty line last: the second of two flushes finds nothing. -/
theorem selfTestSequence_events (s : State) :
    ∃ mid, (selfTestSequence s).events = s.events ++ ([.flush s.text s.page] ++ mid ++ [.flush [] []]) := by
  obtain ⟨u, hseq, added, hadded⟩ := selfTestSequence_eq_flush_flush s
  refine ⟨added ++ [.flush u.text u.page], ?_⟩
  rw [hseq]
  simp only [flush_events, flush_text, flush_page, ← hadded, List.append_assoc]

end Sys2Proof.Machine

/-! The statements of 43_escape_pending.md. -/

namespace Sys2Proof.Machine

open Sys2Proof

/-- Settles O26: a byte below 0xF8 runs the header, any other a code that leaves TEXT, and no instruction takes a second
byte. -/
theorem escapeTakesExactlyOneByte : Obligations.EscapeTakesExactlyOneByte := by
  unfold Obligations.EscapeTakesExactlyOneByte
  intro s b rest hm hin
  have hstep : step s = exec (resolve s.cfg.escMap b).toInstr (takeByte s rest) := by
    rw [step_of_input_cons hin, hm]
    rfl
  have htaken {t : State} (h : exec (resolve s.cfg.escMap b).toInstr (takeByte s rest) = .next t) : t.input = rest :=
    (exec_extendsSession h).input
  by_cases hb : b.toNat < 0xF8
  · have hexec : exec (resolve s.cfg.escMap b).toInstr (takeByte s rest) = .next (graphicsHeader (takeByte s rest) b) := by
      rw [resolve_of_lt _ hb]
      exact exec_graphicsMode _ hb
    refine ⟨_, hstep.trans hexec, graphicsHeader_mode_ne _ b, htaken hexec, fun h => absurd hb (Nat.not_lt.mpr h), fun _ => ?_⟩
    rw [graphicsHeader_eq_update]
    exact ⟨rfl, fun hne => if_neg fun h => hne h.1⟩
  · have hreserved : 0xF8 ≤ b.toNat := Nat.le_of_not_lt hb
    obtain ⟨t, hexec, hmode⟩ := exec_named_code (resolve_ne_graphicsMode s.cfg.escMap hreserved) (takeByte s rest)
    refine ⟨t, hstep.trans hexec, ?_, htaken hexec, fun _ => hmode, fun h => absurd h hb⟩
    rw [hmode]
    decide

/-- Settles O35: the first byte leaves a payload of 255, and the run over the others is the run over that payload. -/
theorem wrapPolicyTakes256Bytes : Obligations.WrapPolicyTakes256Bytes := by
  unfold Obligations.WrapPolicyTakes256Bytes
  intro bytes rest s hm hp hr hlen hin k hk1 hk
  obtain ⟨b, bs, rfl⟩ := List.exists_cons_of_length_eq_add_one hlen
  obtain ⟨j, rfl⟩ := Nat.exists_eq_add_of_le' hk1
  have hbs : bs.length = 255 := Nat.succ.inj hlen
  obtain ⟨u, hfirst, hpending⟩ := payloadPending_of_wrap256 hm hp hr hbs hin
  obtain ⟨t, hrun, hleft⟩ := hpending.run (k := j) (by omega)
  have hcount : (bs.drop j).length = 256 - (j + 1) := by rw [List.length_drop, hbs]; omega
  refine ⟨t, (run_succ_of_step hfirst j).trans hrun, hleft.input, hleft.count.trans hcount, ?_⟩
  have hlast : 256 - (j + 1) = 0 ↔ j + 1 = 256 := by omega
  rw [hleft.mode, hcount]
  simp only [hlast]

/-- Settles O36: the trap is kept by every byte, and so by every run over the bytes offered. -/
theorem neverPolicyIsStuckInGraphics : Obligations.NeverPolicyIsStuckInGraphics := by
  unfold Obligations.NeverPolicyIsStuckInGraphics
  intro s hm hp hr k hk
  have hstuck : StuckInGraphics s.input s := ⟨hm, hp, hr, rfl⟩
  obtain ⟨t, hrun, ht⟩ := run_over_bytes (fun _ _ _ h => h.step) k s.input s hk hstuck
  exact ⟨t, hrun, ht.mode, ht.count, ht.input⟩

/-- Settles O37: the sequence starts from the reset state, whose text is empty and whose page is still the stale one. -/
theorem selfTestEndsAtConstruction : Obligations.SelfTestEndsAtConstruction := by
  unfold Obligations.SelfTestEndsAtConstruction
  intro s
  obtain ⟨mid, hevents⟩ := selfTestSequence_events (doReset s)
  rw [doReset_events, doReset_text, doReset_page] at hevents
  refine ⟨[.flush [] s.page] ++ mid ++ [.flush [] []], ?_, rfl, List.getLast?_concat⟩
  rw [exec_selfTest, doSelfTest_eq, hevents]

/-- Settles O23: RESET is `doReset`, and in GRAPHICS the same bytes are columns. -/
theorem resetClearsAllButThePage : Obligations.ResetClearsAllButThePage := by
  unfold Obligations.ResetClearsAllButThePage
  refine ⟨fun e => ⟨congrArg EscapeCode.toInstr (resolve_FF e), rfl, rfl⟩, fun s => ?_⟩
  rw [exec_reset, doReset_eq]
  rfl

/-- Settles O24: each code is one flag's write and then the return to TEXT. -/
theorem flagCodesWriteOneFlag : Obligations.FlagCodesWriteOneFlag := by
  unfold Obligations.FlagCodesWriteOneFlag
  refine ⟨fun e => ⟨congrArg EscapeCode.toInstr (resolve_FD e), congrArg EscapeCode.toInstr (resolve_FC e)⟩, fun s => ?_⟩
  exact ⟨exec_startDoubleWide s, exec_stopDoubleWide s, exec_startUnderline s, exec_stopUnderline s,
    exec_startAltCharset s, exec_stopAltCharset s⟩

/-- Settles O27: below the reserved set a byte is a header, and the header is one update of the state. -/
theorem graphicsHeaderSetsTheCount : Obligations.GraphicsHeaderSetsTheCount := by
  unfold Obligations.GraphicsHeaderSetsTheCount
  refine ⟨fun e c hc => decode_escapePending_of_lt e (Nat.lt_succ_of_le hc), fun s n hn => ?_⟩
  rw [exec_graphicsMode s (Nat.lt_succ_of_le hn), graphicsHeader_eq_update]

end Sys2Proof.Machine

/-! SUPPORT. A payload byte on the page (R200 to R203): with room for its copies it is AppendCol of its column value, and
without room it is what it is on the fresh line after a forced flush. -/

namespace Sys2Proof.Machine

open Sys2Proof

/-- Under underline bit 7 is on and every other bit is the byte's (R201). -/
theorem columnValue_true_getLsbD (b : Byte) (i : Nat) :
    (columnValue true b).getLsbD i = if i = 7 then true else b.getLsbD i := by
  have hul : ulBit = BitVec.twoPow 8 7 := rfl
  rw [columnValue, if_pos rfl, hul, BitVec.getLsbD_or, BitVec.getLsbD_twoPow]
  by_cases hi : i = 7
  · simp [hi]
  · simp [hi, Ne.symm hi]

/-- Over a blank column both write policies store the value itself (R71). -/
theorem storedColumn_blank (w : ColumnWrite) (v : Byte) : storedColumn w 0#8 v = v := by
  cases w with
  | overwrite => rfl
  | or => exact BitVec.zero_or

/-- On a full line PutCol discards the column (R70). -/
theorem putCol_of_full {s : State} (h : s.col.val = 166) (v : Byte) : putCol s v = s :=
  dif_neg (by rw [h, pageWidth]; decide)

/-- The last column of the page is written and fills the line (R26, R70). -/
theorem putCol_col_of_last {s : State} (h : s.col.val = 165) (v : Byte) : (putCol s v).col.val = 166 := by
  rw [putCol_col, h]
  rfl

theorem glyphWidth_of_single {s : State} (h : s.dw = false) : glyphWidth s = 1 := by rw [glyphWidth, h]; rfl

theorem glyphWidth_of_double {s : State} (h : s.dw = true) : glyphWidth s = 2 := if_pos h

theorem glyphWidth_pos (s : State) : 0 < glyphWidth s := by
  rcases glyphWidth_cases s with hw | hw
  · omega
  · omega

/-- The forced flush as one update: the warning stands before the line that it explains (R202, R273). -/
theorem forcedFlush_eq (s : State) :
    forcedFlush s =
      { s with
        text := [], page := [], col := 0
        events := s.events ++ [.warn .gfxOverflow s.rem, .flush s.text s.page] } := by
  rw [forcedFlush, flush_eq, raiseWarn_events, List.append_assoc]
  rfl

/-- A fresh line has room for every copy of a column (R202). -/
theorem forcedFlush_fits (s : State) : (forcedFlush s).col.val + glyphWidth (forcedFlush s) ≤ 166 := by
  rw [forcedFlush_col]
  rcases glyphWidth_cases (forcedFlush s) with hw | hw
  · rw [hw]; decide
  · rw [hw]; decide

/-- On a full line a payload byte is drawn as on the line after the forced flush (R202). -/
theorem drawPayload_of_full {s : State} (h : s.col.val = 166) (b : Byte) :
    drawPayload s b = drawPayload (forcedFlush s) b := by
  have hfull : lineFull s = true := (lineFull_iff s).mpr h
  have hfresh : lineFull (forcedFlush s) = false := rfl
  simp only [drawPayload, hfull, hfresh, if_true, Bool.false_eq_true, if_false]

/-- Unless the duplicate at column 165 is to flush, a payload byte is AppendCol of its column value (R200, R203). -/
theorem drawPayload_eq_appendCol {s : State} (hcol : s.col.val ≠ 166)
    (hdup : ¬ (s.dw = true ∧ s.col.val = 165 ∧ s.cfg.dupOverflow = .flushThenWrite)) (b : Byte) :
    drawPayload s b = appendCol s (columnValue s.ul b) := by
  have hroom (hdw : s.dw = true) :
      duplicateRoom (putCol s (columnValue s.ul b)) = putCol s (columnValue s.ul b) := by
    refine duplicateRoom_of_room fun ⟨hfull, hpolicy⟩ => hdup ⟨hdw, ?_, ?_⟩
    · rw [putCol_col, pageWidth] at hfull
      omega
    · rwa [putCol_cfg] at hpolicy
  unfold drawPayload appendCol
  simp only [if_neg fun hf => hcol ((lineFull_iff s).mp hf), putCol_dw]
  split
  · rename_i hdw
    rw [hroom hdw]
  · rfl

/-- Under DISCARD the duplicate at column 165 is lost (R203). -/
theorem drawPayload_duplicate_discarded {s : State} (hdw : s.dw = true) (hcol : s.col.val = 165)
    (hpolicy : s.cfg.dupOverflow = .discard) (b : Byte) : drawPayload s b = putCol s (columnValue s.ul b) := by
  have hnotFull : s.col.val ≠ 166 := by omega
  have hnoFlush : ¬ (s.dw = true ∧ s.col.val = 165 ∧ s.cfg.dupOverflow = .flushThenWrite) := by
    rintro ⟨-, -, hflush⟩
    exact nomatch hpolicy.symm.trans hflush
  rw [drawPayload_eq_appendCol hnotFull hnoFlush, appendCol]
  simp only [putCol_dw, hdw, if_true]
  exact putCol_of_full (putCol_col_of_last hcol _) _

/-- Under FLUSH_THEN_WRITE the duplicate at column 165 goes to the line after a forced flush (R203). -/
theorem drawPayload_duplicate_flushes {s : State} (hdw : s.dw = true) (hcol : s.col.val = 165)
    (hpolicy : s.cfg.dupOverflow = .flushThenWrite) (b : Byte) :
    drawPayload s b = putCol (forcedFlush (putCol s (columnValue s.ul b))) (columnValue s.ul b) := by
  have hfull : (putCol s (columnValue s.ul b)).col.val = 166 := putCol_col_of_last hcol _
  have hflush : duplicateRoom (putCol s (columnValue s.ul b)) = forcedFlush (putCol s (columnValue s.ul b)) := by
    refine if_pos ?_
    rw [Bool.and_eq_true, lineFull_iff, beq_iff_eq, putCol_cfg]
    exact ⟨hfull, hpolicy⟩
  have hroom : ¬ lineFull s = true := by rw [lineFull_iff]; omega
  unfold drawPayload
  simp only [if_neg hroom, putCol_dw, hdw, if_true, hflush]

/-- On the fresh line after a forced flush one column stands alone, whatever the write policy (R70, R71, R202). -/
theorem putCol_forcedFlush_read (s : State) (v : Byte) (c : Nat) :
    (putCol (forcedFlush s) v).page.read c = if c = 0 then v else 0#8 := by
  have hcol : (forcedFlush s).col.val = 0 := rfl
  have hroom : 0 < pageWidth := by decide
  rw [putCol_read _ Memory.wf_nil, forcedFlush_page, Memory.read_nil, storedColumn_blank, hcol]
  simp only [hroom, and_true]

/-- After the countdown the page is still canonical (R200). -/
theorem gfxColumn_wf {s : State} (h : PageCanonical s) (b : Byte) : PageCanonical (countDown (drawPayload s b)) := by
  rw [PageCanonical, countDown_page]
  exact wf_kept.drawPayload b h

/-- What no payload byte writes, whatever is drawn (R200). -/
theorem gfxColumn_frame (s : State) (b : Byte) :
    (countDown (drawPayload s b)).dw = s.dw ∧ (countDown (drawPayload s b)).ul = s.ul ∧
      (countDown (drawPayload s b)).alt = s.alt ∧ (countDown (drawPayload s b)).cfg = s.cfg ∧
      (countDown (drawPayload s b)).input = s.input ∧ (countDown (drawPayload s b)).pos = s.pos := by
  simp only [countDown_dw, countDown_ul, countDown_alt, countDown_cfg, countDown_input, countDown_pos, drawPayload_dw,
    drawPayload_ul, drawPayload_alt, drawPayload_cfg, drawPayload_input, drawPayload_pos, and_self]

section Fits

variable {s : State} (hfits : s.col.val + glyphWidth s ≤ 166) (b : Byte)

include hfits

/-- A payload byte with room for its copies is the run of them (R200, R240). -/
theorem drawPayload_of_fits : drawPayload s b = putCols s (List.replicate (glyphWidth s) (columnValue s.ul b)) := by
  have hwidth := glyphWidth_pos s
  have hcol : s.col.val ≠ 166 := by omega
  rw [drawPayload_eq_appendCol hcol, appendCol_eq_putCols]
  rintro ⟨hdw, hlast, -⟩
  rw [glyphWidth_of_double hdw, hlast] at hfits
  exact absurd hfits (by decide)

/-- The copies are written from the old column on, and no other column is touched (R200, R71). -/
theorem gfxColumn_read_of_fits (hwf : PageCanonical s) (c : Nat) :
    (countDown (drawPayload s b)).page.read c =
      if s.col.val ≤ c ∧ c < s.col.val + glyphWidth s then
        storedColumn s.cfg.columnWrite (s.page.read c) (columnValue s.ul b)
      else s.page.read c := by
  rw [countDown_page, drawPayload_of_fits hfits, putCols_read _ hwf, List.length_replicate, pageWidth]
  by_cases hc : s.col.val ≤ c ∧ c < s.col.val + glyphWidth s
  · obtain ⟨hle, hlt⟩ := hc
    have hcopy : c - s.col.val < glyphWidth s := by omega
    rw [if_pos ⟨hle, hlt, by omega⟩, if_pos ⟨hle, hlt⟩, List.getD_replicate _ hcopy]
  · rw [if_neg fun ⟨hle, hlt, _⟩ => hc ⟨hle, hlt⟩, if_neg hc]

/-- With room the column advances by the copies and nothing is emitted; the rest is as without room (R200). -/
theorem gfxColumn_frame_of_fits :
    (countDown (drawPayload s b)).col.val = s.col.val + glyphWidth s ∧ (countDown (drawPayload s b)).text = s.text ∧
      (countDown (drawPayload s b)).events = s.events ∧ (countDown (drawPayload s b)).dw = s.dw ∧
      (countDown (drawPayload s b)).ul = s.ul ∧ (countDown (drawPayload s b)).alt = s.alt ∧
      (countDown (drawPayload s b)).cfg = s.cfg ∧ (countDown (drawPayload s b)).input = s.input ∧
      (countDown (drawPayload s b)).pos = s.pos := by
  refine ⟨?_, ?_, ?_, gfxColumn_frame s b⟩
  · rw [countDown_col, drawPayload_of_fits hfits, putCols_col, List.length_replicate]
    exact Nat.min_eq_left hfits
  · rw [countDown_text, drawPayload_of_fits hfits]
    exact putCols_field State.text (fun t v => putCol_text t v) s _
  · rw [countDown_events, drawPayload_of_fits hfits]
    exact putCols_field State.events (fun t v => putCol_events t v) s _

end Fits

/-- ONE_BYTE ends the payload on the byte that finds a zero count (R204). -/
theorem zeroCount_of_oneByte {s : State} (h : s.cfg.gfxZero = .oneByte) : zeroCount s = setMode s .text := by
  simp only [zeroCount, h, zeroCountAction]

end Sys2Proof.Machine

/-! The statements of 44_graphics_mode.md. -/

namespace Sys2Proof.Machine

open Sys2Proof

/-- Settles O29: in single width the run of copies is one column. -/
theorem payloadByteDrawsOneColumn : Obligations.PayloadByteDrawsOneColumn := by
  unfold Obligations.PayloadByteDrawsOneColumn
  intro s p hwf hdw hcol
  have hw : glyphWidth s = 1 := glyphWidth_of_single hdw
  have hfits : s.col.val + glyphWidth s ≤ 166 := by omega
  have hrest := gfxColumn_frame_of_fits hfits p
  rw [hw] at hrest
  refine ⟨_, exec_gfxColumn s p, gfxColumn_wf hwf p, ?_, fun c hc => ?_, hrest⟩
  · rw [gfxColumn_read_of_fits hfits p hwf, if_pos (by omega)]
    rfl
  · rw [gfxColumn_read_of_fits hfits p hwf, if_neg (by omega)]

/-- Settles O30: in double width the run of copies is two columns. -/
theorem payloadByteIsDoubled : Obligations.PayloadByteIsDoubled := by
  unfold Obligations.PayloadByteIsDoubled
  intro s p hwf hdw hcol
  have hw : glyphWidth s = 2 := glyphWidth_of_double hdw
  have hfits : s.col.val + glyphWidth s ≤ 166 := by omega
  have hrest := gfxColumn_frame_of_fits hfits p
  rw [hw] at hrest
  refine ⟨_, exec_gfxColumn s p, gfxColumn_wf hwf p, fun c hc => ?_, fun c hc hc' => ?_, hrest⟩
  · rw [gfxColumn_read_of_fits hfits p hwf, if_pos (by omega)]
    rfl
  · rw [gfxColumn_read_of_fits hfits p hwf, if_neg (by omega)]

/-- Settles O31: the first copy fills the line, so the second finds it full under both policies. -/
theorem duplicateAtLastColumn : Obligations.DuplicateAtLastColumn := by
  unfold Obligations.DuplicateAtLastColumn
  intro s p hwf hdw hcol
  have hfirst : (putCol s (columnValue s.ul p)).page.wf = true := putCol_wf hwf _
  refine ⟨_, (putCol s (columnValue s.ul p)).page, exec_gfxColumn s p, hfirst, gfxColumn_wf hwf p, ?_, fun c hc => ?_, ?_⟩
  · rw [putCol_read s hwf, hcol, if_pos ⟨rfl, by decide⟩]
    rfl
  · rw [putCol_read s hwf, hcol, if_neg fun h => hc h.1]
  obtain ⟨hdw', hul, halt, hcfg, hin, hpos⟩ := gfxColumn_frame s p
  refine ⟨hdw', hul, halt, hcfg, hin, hpos, fun hpolicy => ?_, fun hpolicy => ?_⟩
  · rw [countDown_page, countDown_col, countDown_text, countDown_events, drawPayload_duplicate_discarded hdw hcol hpolicy,
      putCol_text, putCol_events]
    exact ⟨rfl, putCol_col_of_last hcol _, rfl, rfl⟩
  · have hread (c : Nat) : (countDown (drawPayload s p)).page.read c = if c = 0 then columnValue s.ul p else 0#8 := by
      rw [countDown_page, drawPayload_duplicate_flushes hdw hcol hpolicy, putCol_forcedFlush_read]
    refine ⟨(hread 0).trans (if_pos rfl), fun c hc => (hread c).trans (if_neg hc), ?_, ?_, ?_⟩
    · rw [countDown_col, drawPayload_duplicate_flushes hdw hcol hpolicy, putCol_col]
      rfl
    · rw [countDown_text, drawPayload_duplicate_flushes hdw hcol hpolicy, putCol_text, forcedFlush_text]
    · rw [countDown_events, drawPayload_duplicate_flushes hdw hcol hpolicy, putCol_events, forcedFlush_eq, putCol_rem,
        putCol_text, putCol_events]

/-- Settles O32: the byte is drawn as on the flushed state, where both copies fit. -/
theorem fullLineForcesFlush : Obligations.FullLineForcesFlush := by
  unfold Obligations.FullLineForcesFlush
  intro s p hcol
  have hexec : exec (.gfxColumn p) s = exec (.gfxColumn p) (forcedFlush s) := by
    rw [exec_gfxColumn, exec_gfxColumn, drawPayload_of_full hcol]
  have hfits := forcedFlush_fits s
  have hwidth := glyphWidth_pos (forcedFlush s)
  obtain ⟨hcol', htext, hevents, -⟩ := gfxColumn_frame_of_fits hfits p
  refine ⟨by rw [hexec, forcedFlush_eq], _, hexec.trans (exec_gfxColumn _ p), ?_, htext, ?_, ?_⟩
  · rw [hevents, forcedFlush_eq]
  · rw [gfxColumn_read_of_fits hfits p Memory.wf_nil, if_pos ⟨Nat.zero_le 0, Nat.lt_add_left _ hwidth⟩, forcedFlush_page,
      Memory.read_nil, storedColumn_blank]
    rfl
  · rw [hcol', forcedFlush_col]
    exact Nat.zero_add _

/-- Settles O33: drawing keeps the count and the mode, so the countdown finds those of the state. -/
theorem payloadByteCountsDown : Obligations.PayloadByteCountsDown := by
  unfold Obligations.PayloadByteCountsDown
  intro s p
  have hrem : (drawPayload s p).rem = s.rem := drawPayload_rem s p
  have hmode : (drawPayload s p).mode = s.mode := drawPayload_mode s p
  have hcfg : (drawPayload s p).cfg = s.cfg := drawPayload_cfg s p
  refine ⟨_, exec_gfxColumn s p, fun h => ?_, fun h => ?_, fun h => ?_⟩
  · have hpos : 1 ≤ (drawPayload s p).rem.toNat := by rw [hrem]; omega
    rw [countDown_rem_of_pos hpos, countDown_mode_of_pos hpos, hrem, if_neg (by omega)]
    exact ⟨rfl, hmode⟩
  · have hpos : 1 ≤ (drawPayload s p).rem.toNat := by rw [hrem]; omega
    rw [countDown_rem_of_pos hpos, countDown_mode_of_pos hpos, hrem, if_pos h, h]
    exact ⟨rfl, rfl⟩
  · have hzero : (drawPayload s p).rem = 0#8 := hrem.trans (BitVec.eq_of_toNat_eq h)
    rw [countDown_of_zero hzero]
    refine ⟨fun hp => ?_, fun hp => ?_, fun hp => ?_⟩
    · rw [zeroCount_of_oneByte (hcfg ▸ hp)]
      exact ⟨congrArg BitVec.toNat hzero, rfl⟩
    · rw [zeroCount_of_wrap256 (hcfg ▸ hp)]
      exact ⟨rfl, hmode⟩
    · rw [zeroCount_of_never (hcfg ▸ hp)]
      exact ⟨congrArg BitVec.toNat hzero, hmode⟩

/-- Settles O34: the payload is pending as a whole at the start, and a run leaves the rest of it pending. -/
theorem payloadTakesExactlyItsBytes : Obligations.PayloadTakesExactlyItsBytes := by
  unfold Obligations.PayloadTakesExactlyItsBytes
  intro bytes rest s hm hne hcount hin k hk
  have hstart : PayloadPending rest bytes s :=
    ⟨hin, hcount, hm.trans (if_neg fun h => hne (List.eq_nil_of_length_eq_zero h)).symm⟩
  obtain ⟨t, hrun, hleft⟩ := hstart.run hk
  have hlast : bytes.length - k = 0 ↔ k = bytes.length := by omega
  refine ⟨t, hrun, hleft.input, hleft.count.trans List.length_drop, ?_⟩
  rw [hleft.mode, List.length_drop]
  simp only [hlast]

/-- Settles O11: a byte with bit 7 on agrees with its column value in every bit. -/
theorem underlineForcesBitSeven : Obligations.UnderlineForcesBitSeven := by
  unfold Obligations.UnderlineForcesBitSeven
  refine fun b => ⟨rfl, columnValue_true_getLsbD b, fun h7 => BitVec.eq_of_getLsbD_eq fun i _ => ?_⟩
  rw [columnValue_true_getLsbD]
  split
  · rename_i hi
    rw [hi, h7]
  · rfl

end Sys2Proof.Machine

/-! SUPPORT. A line of normal-width characters that started empty at column 0 (R242 to R249): what each character adds to
it, and where each glyph stands. -/

namespace Sys2Proof.Machine

open Sys2Proof

/-- In normal width a padding column stays one column, whatever the policy (R243). -/
theorem padWidth_of_single {s : State} (h : s.dw = false) : padWidth s = 1 := by
  rw [padWidth_eq, if_neg fun hd => absurd (h.symm.trans hd.1) (by decide)]

/-- With nothing ahead of the column a run of columns stands on the page as it is, under both write policies (R71). -/
theorem putCols_read_of_blankAhead {s : State} (hwf : PageCanonical s) (hblank : BlankAhead s) (vs : List Byte) (c : Nat) :
    (putCols s vs).page.read c =
      if s.col.val ≤ c ∧ c < s.col.val + vs.length ∧ c < 166 then vs.getD (c - s.col.val) 0#8 else s.page.read c := by
  rw [putCols_read vs hwf, pageWidth]
  split
  · rename_i hc
    rw [hblank c hc.1, storedColumn_blank]
  · rfl

/-- Blank columns change nothing ahead of the column. -/
theorem putCols_blank_read {s : State} (hwf : PageCanonical s) (hblank : BlankAhead s) (n c : Nat) :
    (putCols s (List.replicate n 0#8)).page.read c = s.page.read c := by
  rw [putCols_read_of_blankAhead hwf hblank, List.length_replicate]
  split
  · rename_i hc
    rw [hblank c hc.1, List.getD_replicate _ (by omega)]
  · rfl

/-- Padding without underline leaves a line with nothing ahead of the column as it reads (R242, R244). -/
theorem afterPad_read_of_blankAhead {s : State} (hwf : PageCanonical s) (hblank : BlankAhead s) (k c : Nat) :
    (afterPad s 0#8 k).page.read c = s.page.read c := by
  unfold afterPad
  split
  · rw [padCol_eq_putCols, putCols_blank_read hwf hblank]
  · rfl

/-- A run of columns keeps the page canonical and blank ahead of the column (R39). -/
theorem blankAhead_putCols {s : State} (hwf : PageCanonical s) (hblank : BlankAhead s) (vs : List Byte) :
    PageCanonical (putCols s vs) ∧ BlankAhead (putCols s vs) :=
  (blankAhead_kept.toPrinting fun _ _ _ h => h).putCols vs ⟨hwf, hblank⟩

/-- Column `c` of a line of normal-width characters `bs` in the font `f`: glyph `k` (from 0) at columns `7k` to `7k + 4`,
blank between two glyphs and past the last one (R247). -/
def lineColumn (f : Font) (bs : List Byte) (c : Nat) : Byte :=
  match bs[c / 7]? with
  | some b => (Config.fontTable f b).columns.getD (c % 7) 0#8
  | none => 0#8

theorem lineColumn_of_getElem? {f : Font} {bs : List Byte} {b : Byte} {k j : Nat} (h : bs[k]? = some b) (hj : j < 7) :
    lineColumn f bs (7 * k + j) = (Config.fontTable f b).columns.getD j 0#8 := by
  have hdiv : (7 * k + j) / 7 = k := by omega
  have hmod : (7 * k + j) % 7 = j := by omega
  simp only [lineColumn, hdiv, hmod, h]

theorem lineColumn_past {f : Font} {bs : List Byte} {c : Nat} (h : 7 * bs.length ≤ c) : lineColumn f bs c = 0#8 := by
  have hnone : bs[c / 7]? = none := List.getElem?_eq_none (by omega)
  simp only [lineColumn, hnone]

/-- A glyph is five columns wide (R63). -/
theorem columns_getD_past (g : Glyph) {j : Nat} (h : 5 ≤ j) : g.columns.getD j 0#8 = 0#8 :=
  List.getD_eq_default _ _ h

/-- The last column of a line is a blank one after its last glyph. -/
theorem lineColumn_last {f : Font} {bs : List Byte} {c : Nat} (h : c + 1 = 7 * bs.length) : lineColumn f bs c = 0#8 := by
  have hk : c / 7 < bs.length := by omega
  have hc : c = 7 * (c / 7) + 6 := by omega
  rw [hc, lineColumn_of_getElem? (List.getElem?_eq_getElem hk) (by omega)]
  exact columns_getD_past _ (by omega)

/-- One more character adds its five glyph columns and changes no other column. -/
theorem lineColumn_concat (f : Font) (bs : List Byte) (b : Byte) (c : Nat) :
    lineColumn f (bs ++ [b]) c =
      if 7 * bs.length ≤ c ∧ c < 7 * bs.length + 5 then (Config.fontTable f b).columns.getD (c - 7 * bs.length) 0#8
      else lineColumn f bs c := by
  by_cases hbefore : c < 7 * bs.length
  · rw [if_neg (by omega)]
    have hk : c / 7 < bs.length := by omega
    simp only [lineColumn, List.getElem?_append_left hk]
  have hblank : lineColumn f bs c = 0#8 := lineColumn_past (by omega)
  obtain ⟨j, rfl⟩ := Nat.exists_eq_add_of_le (Nat.le_of_not_lt hbefore)
  rw [hblank, Nat.add_sub_cancel_left]
  by_cases hglyph : j < 7
  · rw [lineColumn_of_getElem? List.getElem?_concat_length hglyph]
    split
    · rfl
    · exact columns_getD_past _ (by omega)
  · rw [if_neg (by omega)]
    refine lineColumn_past ?_
    rw [List.length_append, List.length_singleton]
    omega

/-- The formatting under which the self-test prints (R222): normal width, no underline, no character unmappable, with the
charset and the font that are then active. -/
structure PlainStyle (T : Charset) (f : Font) (t : State) : Prop where
  dw : t.dw = false
  ul : t.ul = false
  mappable : t.cfg.unmappable = []
  charset : activeCharset t = T
  font : activeFont t = f

/-- The line in progress is exactly the normal-width characters `bs`, from column 0 (R247). -/
structure HoldsLine (T : Charset) (f : Font) (bs : List Byte) (t : State) : Prop where
  style : PlainStyle T f t
  text : t.text = bs.map (decodeChar T)
  col : t.col.val = min (7 * bs.length - 1) 166
  page : PageCanonical t
  read : ∀ c, t.page.read c = lineColumn f bs c

section Line

variable {T : Charset} {f : Font} {bs : List Byte} {t : State}

theorem PlainStyle.printChar (h : PlainStyle T f t) (b : Byte) : PlainStyle T f (printChar t b) where
  dw := (printChar_dw t b).trans h.dw
  ul := (printChar_ul t b).trans h.ul
  mappable := by rw [printChar_cfg, h.mappable]
  charset := by rw [← h.charset, activeCharset, activeCharset, printChar_cfg, printChar_alt]
  font := by rw [← h.font, activeFont, activeFont, printChar_cfg, printChar_alt]

theorem PlainStyle.flush (h : PlainStyle T f t) : PlainStyle T f (flush t) :=
  ⟨h.dw, h.ul, h.mappable, h.charset, h.font⟩

/-- After a flush the line holds no character. -/
theorem HoldsLine.flush (h : PlainStyle T f t) : HoldsLine T f [] (Machine.flush t) :=
  ⟨h.flush, rfl, rfl, rfl, fun _ => rfl⟩

/-- Both tests of R249 find the first character of the line. -/
theorem HoldsLine.isFirst_iff (h : HoldsLine T f bs t) : isFirst t = true ↔ bs = [] := by
  cases hp : t.cfg.firstTest with
  | columnZero =>
    rw [isFirst_iff_of_columnZero hp, h.col, ← List.length_eq_zero_iff]
    omega
  | textEmpty => rw [isFirst_iff_of_textEmpty hp, h.text, List.map_eq_nil_iff]

/-- The next glyph starts at a multiple of seven columns: the padding before it, where there is one, reaches to there. -/
theorem HoldsLine.glyph_start (h : HoldsLine T f bs t) (hn : bs.length < 24) :
    t.col.val + leadWidth t = 7 * bs.length := by
  unfold leadWidth
  rw [h.col, padWidth_of_single h.style.dw]
  by_cases hnil : bs = []
  · rw [if_pos (h.isFirst_iff.mpr hnil), hnil]
    rfl
  · have hpos : 0 < bs.length := List.length_pos_iff.mpr hnil
    rw [if_neg fun hf => hnil (h.isFirst_iff.mp hf)]
    omega

/-- Up to 24 characters fit (R247). -/
theorem HoldsLine.not_wraps (h : HoldsLine T f bs t) (hn : bs.length < 24) : wraps t = false := by
  have hstart := h.glyph_start hn
  have hk := glyphWidth_of_single h.style.dw
  refine decide_eq_false ?_
  rw [neededColumns, hk, pageWidth]
  omega

theorem HoldsLine.blankAhead (h : HoldsLine T f bs t) (hn : bs.length < 24) : BlankAhead t := by
  intro c hc
  rw [h.col] at hc
  rw [h.read]
  by_cases hlast : c + 1 = 7 * bs.length
  · exact lineColumn_last hlast
  · exact lineColumn_past (by omega)

/-- The run of columns that the next character `b` puts before the padding after it. -/
def charRun (t : State) (b : Byte) : List Byte :=
  List.replicate (leadWidth t) 0#8 ++ (Config.fontTable (activeFont t) b).columns

theorem charRun_length (t : State) (b : Byte) : (charRun t b).length = leadWidth t + 5 := by
  rw [charRun, List.length_append, List.length_replicate]
  rfl

/-- On such a line printing is a run of columns, a blank one after it, and the code point. -/
theorem HoldsLine.printChar_eq (h : HoldsLine T f bs t) (hn : bs.length < 24) (b : Byte) :
    printChar t b = appendText (afterPad (putCols t (charRun t b)) 0#8 1) (decodeChar T b) := by
  have hmap : ¬ unmappable t.cfg (activeCharset t) b = true := by
    rw [unmappable_iff, h.style.mappable]
    exact List.not_mem_nil
  have hpad : padValue t.ul = 0#8 := by rw [h.style.ul]; rfl
  rw [printChar, if_neg hmap, placeGlyph_of_fits (h.not_wraps hn), hpad, padWidth_of_single h.style.dw,
    glyphWidth_of_single h.style.dw, h.style.ul, h.style.charset]
  rfl

/-- The columns before the glyph are blank, and the glyph stands from its own start on (R243, R247). -/
theorem HoldsLine.read_putCols_charRun (h : HoldsLine T f bs t) (hn : bs.length < 24) (b : Byte) (c : Nat) :
    (putCols t (charRun t b)).page.read c = lineColumn f (bs ++ [b]) c := by
  have hblank := h.blankAhead hn
  have hstart := h.glyph_start hn
  rw [putCols_read_of_blankAhead h.page hblank, charRun_length, lineColumn_concat, ← hstart, ← h.read]
  by_cases hglyph : t.col.val + leadWidth t ≤ c
  · simp only [charRun, h.style.font]
    rw [List.getD_append_right _ _ _ _ (by rw [List.length_replicate]; omega), List.length_replicate, Nat.sub_sub]
    refine if_congr ?_ rfl rfl
    omega
  · have hnotGlyph : ¬ (t.col.val + leadWidth t ≤ c ∧ c < t.col.val + leadWidth t + 5) := fun hc => hglyph hc.1
    rw [if_neg hnotGlyph]
    split
    · rename_i hc
      rw [hblank c hc.1, charRun, List.getD_append _ _ _ _ (by rw [List.length_replicate]; omega),
        List.getD_replicate _ (by omega)]
    · rfl

/-- A character joins a line of fewer than 24 (R247). -/
theorem HoldsLine.printChar (h : HoldsLine T f bs t) (hn : bs.length < 24) (b : Byte) :
    HoldsLine T f (bs ++ [b]) (printChar t b) := by
  have hstart := h.glyph_start hn
  obtain ⟨hwf, hblank⟩ := blankAhead_putCols h.page (h.blankAhead hn) (charRun t b)
  refine ⟨h.style.printChar b, ?_, ?_, wf_kept.printChar b h.page, fun c => ?_⟩
  · rw [h.printChar_eq hn, appendText_text, afterPad_text, putCols_field State.text (fun t v => putCol_text t v), h.text,
      List.map_append]
    rfl
  · have hsingle : 1 = 1 ∨ 1 = 2 := .inl rfl
    have hafter := afterPad_col (putCols t (charRun t b)) 0#8 hsingle
    rw [putCols_col, charRun_length, pageWidth] at hafter
    rw [h.printChar_eq hn, appendText_col, List.length_append, List.length_singleton]
    omega
  · rw [h.printChar_eq hn, appendText_page, afterPad_read_of_blankAhead hwf hblank, h.read_putCols_charRun hn]

/-- Such a character emits nothing (R243, R246). -/
theorem HoldsLine.printChar_events (h : HoldsLine T f bs t) (hn : bs.length < 24) (b : Byte) :
    (Machine.printChar t b).events = t.events := by
  rw [h.printChar_eq hn, appendText_events, afterPad_events]
  exact putCols_field State.events (fun t v => putCol_events t v) t _

end Line

end Sys2Proof.Machine

/-! SUPPORT. The self-test's character part (R220, R221): after `i` turns of the loop there are `i / 24` rows emitted and
`i % 24` characters on the line. -/

namespace Sys2Proof.Machine

open Sys2Proof

/-- The byte of each position is the position, but for the underscore in the first place (R221). -/
theorem selfTestByte_eq (i : Nat) : selfTestByte i = if i = 0 then 0x5F#8 else BitVec.ofNat 8 (32 + i) :=
  if_congr (by omega) rfl rfl

/-- The bytes of `n` consecutive turns of the loop from turn `start` on. -/
def selfTestSpan (start n : Nat) : List Byte := (List.range n).map fun k => selfTestByte (start + k)

theorem selfTestSpan_length (start n : Nat) : (selfTestSpan start n).length = n := by
  rw [selfTestSpan, List.length_map, List.length_range]

theorem selfTestSpan_succ (start n : Nat) :
    selfTestSpan start (n + 1) = selfTestSpan start n ++ [selfTestByte (start + n)] := by
  rw [selfTestSpan, List.range_succ, List.map_append]
  rfl

theorem selfTestSpan_getElem? {start n k : Nat} (h : k < n) :
    (selfTestSpan start n)[k]? = some (selfTestByte (start + k)) := by
  rw [selfTestSpan, List.getElem?_map, List.getElem?_range h]
  rfl

/-- The event is the flush of the line of the normal-width characters `bs` (R72, R247). -/
def FlushesLine (T : Charset) (f : Font) (bs : List Byte) (e : Event) : Prop :=
  ∃ bitmap, e = .flush (bs.map (decodeChar T)) bitmap ∧ bitmap.wf = true ∧ ∀ c, bitmap.read c = lineColumn f bs c

section Rows

variable {T : Charset} {f : Font} {s t : State}

theorem HoldsLine.flush_event {bs : List Byte} (h : HoldsLine T f bs t) :
    ∃ e, (Machine.flush t).events = t.events ++ [e] ∧ FlushesLine T f bs e :=
  ⟨_, flush_events t, t.page, by rw [h.text], h.page, h.read⟩

/-- The events `rows` are the first full rows of the self-test, in order (R225). -/
def AreRows (T : Charset) (f : Font) (rows : List Event) : Prop :=
  ∀ r e, rows[r]? = some e → FlushesLine T f (selfTestSpan (24 * r) 24) e

theorem AreRows.concat {rows : List Event} {e : Event} (h : AreRows T f rows)
    (he : FlushesLine T f (selfTestSpan (24 * rows.length) 24) e) : AreRows T f (rows ++ [e]) := by
  intro r e' hr
  rcases Nat.lt_trichotomy r rows.length with hlt | rfl | hgt
  · rw [List.getElem?_append_left hlt] at hr
    exact h r e' hr
  · rw [List.getElem?_concat_length] at hr
    exact Option.some.inj hr ▸ he
  · rw [List.getElem?_eq_none (by rw [List.length_append, List.length_singleton]; omega)] at hr
    cases hr

/-- Where the loop that began in `s` stands after `i` turns (R220). -/
structure AfterTurns (T : Charset) (f : Font) (s : State) (i : Nat) (t : State) : Prop where
  line : HoldsLine T f (selfTestSpan (24 * (i / 24)) (i % 24)) t
  rows : ∃ rows, t.events = s.events ++ rows ∧ rows.length = i / 24 ∧ AreRows T f rows

/-- One turn: the character joins the line, and the 24th one ends the row. -/
theorem AfterTurns.turn {i : Nat} (h : AfterTurns T f s i t) : AfterTurns T f s (i + 1) (selfTestChar t i) := by
  obtain ⟨rows, hevents, hlength, hrows⟩ := h.rows
  have hroom : (selfTestSpan (24 * (i / 24)) (i % 24)).length < 24 := by
    rw [selfTestSpan_length]
    omega
  have hevents' : (printChar t (selfTestByte i)).events = s.events ++ rows :=
    (h.line.printChar_events hroom _).trans hevents
  have hline := h.line.printChar hroom (selfTestByte i)
  have hspan := selfTestSpan_succ (24 * (i / 24)) (i % 24)
  rw [Nat.div_add_mod] at hspan
  rw [← hspan] at hline
  unfold selfTestChar
  by_cases hend : (i + 1) % 24 = 0
  · rw [if_pos hend]
    have hfull : i % 24 + 1 = 24 := by omega
    rw [hfull] at hline
    obtain ⟨e, hflush, he⟩ := hline.flush_event
    refine ⟨?_, rows ++ [e], ?_, ?_, hrows.concat (hlength ▸ he)⟩
    · rw [hend]
      exact .flush hline.style
    · rw [hflush, hevents', List.append_assoc]
    · rw [List.length_append, List.length_singleton]
      omega
  · rw [if_neg hend]
    have hmod : (i + 1) % 24 = i % 24 + 1 := by omega
    have hdiv : (i + 1) / 24 = i / 24 := by omega
    refine ⟨?_, rows, hevents', hdiv ▸ hlength, hrows⟩
    rw [hmod, hdiv]
    exact hline

/-- The loop from a fresh line, by induction on its turns. -/
theorem afterTurns_foldl (hs : HoldsLine T f [] s) (n : Nat) :
    AfterTurns T f s n ((List.range n).foldl selfTestChar s) := by
  induction n with
  | zero => exact ⟨hs, [], (List.append_nil _).symm, rfl, fun _ _ hr => nomatch hr⟩
  | succ n ih =>
    rw [List.range_succ, List.foldl_concat]
    exact ih.turn

end Rows

/-! ### The sequence around the character part -/

/-- Where the marker starts: the state after the first ten events of SELF_TEST (R220, R225). -/
def markerStart (s : State) : State := selfTestChars (flush (doReset s))

/-- The mode, the count and the flags are those that DoReset has set, the ports and the configuration those of `s` (R222). -/
theorem markerStart_frame (s : State) :
    (markerStart s).mode = .text ∧ (markerStart s).rem = 0#8 ∧ (markerStart s).dw = false ∧ (markerStart s).ul = false ∧
      (markerStart s).alt = false ∧ (markerStart s).cfg = s.cfg ∧ (markerStart s).input = s.input ∧
      (markerStart s).pos = s.pos := by
  simp [markerStart]

/-- Nine rows are emitted and the seven characters of positions 248 to 254 are on the line (R220, R225). -/
theorem afterTurns_markerStart {s : State} (h : s.cfg.unmappable = []) :
    AfterTurns (charsetSel s.cfg s.cfg.modelFlag false) (fontSel s.cfg s.cfg.modelFlag false) (flush (doReset s)) 223
      (markerStart s) := by
  have hstyle : PlainStyle (charsetSel s.cfg s.cfg.modelFlag false) (fontSel s.cfg s.cfg.modelFlag false) (doReset s) :=
    ⟨rfl, rfl, h, rfl, rfl⟩
  exact afterTurns_foldl (.flush hstyle) 223

/-- The ten events before the marker: the stale page, then the nine rows (R225). -/
theorem markerStart_events {s : State} (h : s.cfg.unmappable = []) :
    ∃ rows, (markerStart s).events = s.events ++ (.flush [] s.page :: rows) ∧ rows.length = 9 ∧
      AreRows (charsetSel s.cfg s.cfg.modelFlag false) (fontSel s.cfg s.cfg.modelFlag false) rows := by
  obtain ⟨rows, hevents, hlength, hrows⟩ := (afterTurns_markerStart h).rows
  refine ⟨rows, ?_, hlength, hrows⟩
  rw [hevents, flush_events, doReset_events, doReset_text, doReset_page, List.append_assoc]
  rfl

/-- The line on which the marker starts. -/
theorem markerStart_holdsLine {s : State} (h : s.cfg.unmappable = []) :
    HoldsLine (charsetSel s.cfg s.cfg.modelFlag false) (fontSel s.cfg s.cfg.modelFlag false) (selfTestSpan 216 7)
      (markerStart s) :=
  (afterTurns_markerStart h).line

/-- Positions 248 to 254, which are printed as characters and not as escape codes (R221). -/
theorem selfTestSpan_last :
    selfTestSpan 216 7 = [0xF8#8, 0xF9#8, 0xFA#8, 0xFB#8, 0xFC#8, 0xFD#8, 0xFE#8] := by decide

/-- A line and a blank line emitted: the state after steps (4) and (5), and after (7) and (8), of R220. -/
theorem flush_flush_eq (s : State) :
    flush (flush s) =
      { s with text := [], page := [], col := 0, events := s.events ++ [.flush s.text s.page, .flush [] []] } := by
  rw [flush_eq, flush_events, List.append_assoc]
  rfl

/-- The state after the marker's operations, step (3) of R220. -/
def markerEnd (s : State) : State := runOps (markerStart s) s.cfg.selfTestMarker

/-- Where the battery line starts, after steps (4) and (5) of R220. -/
def batteryStart (s : State) : State := flush (flush (markerEnd s))

/-- The marker's operations leave the flags clear (R222, R223). -/
theorem batteryStart_frame (s : State) :
    (batteryStart s).cfg = s.cfg ∧ (batteryStart s).dw = false ∧ (batteryStart s).ul = false ∧
      (batteryStart s).alt = false := by
  simp [batteryStart, markerEnd, markerStart]

/-- The state after the battery line's operations, step (6) of R220. -/
def batteryEnd (s : State) : State := runOps (batteryStart s) s.cfg.selfTestBattery

/-- The sequence is those two open parts, each ended by a line and a blank line (R220). -/
theorem selfTestSequence_doReset (s : State) : selfTestSequence (doReset s) = flush (flush (batteryEnd s)) := by
  simp only [selfTestSequence, batteryEnd, batteryStart, markerEnd, markerStart, flush_cfg, runOps_cfg, selfTestChars_cfg,
    doReset_cfg]

theorem doSelfTest_events (s : State) :
    (doSelfTest s).events =
      (batteryEnd s).events ++ [Event.flush (batteryEnd s).text (batteryEnd s).page, Event.flush [] []] := by
  rw [doSelfTest_eq, selfTestSequence_doReset, flush_flush_eq]

/-- No later part takes back the ten first events (R76). -/
theorem markerStart_events_prefix (s : State) : (markerStart s).events <+: (doSelfTest s).events := by
  have k := extendsSession_kept (markerStart s)
  have hstart : ExtendsSession (markerStart s) (markerStart s) := ⟨rfl, rfl, rfl, List.prefix_rfl⟩
  have hbattery : (markerStart s).events <+: (batteryEnd s).events :=
    (k.runOps _ (k.flush _ (k.flush _ (k.runOps _ hstart)))).events
  rw [doSelfTest_events]
  exact hbattery.trans (List.prefix_append _ _)

/-! ### Operations -/

/-- A run of columns changes the page and the column only (R70). -/
theorem putCols_eq_update (s : State) (vs : List Byte) :
    ∃ page col, putCols s vs = { s with page := page, col := col } := by
  refine List.foldlRecOn vs putCol (motive := fun t => ∃ page col, t = { s with page := page, col := col })
    ⟨s.page, s.col, rfl⟩ fun t ht v _ => ?_
  obtain ⟨page, col, rfl⟩ := ht
  unfold putCol
  split
  · exact ⟨_, _, rfl⟩
  · exact ⟨page, col, rfl⟩

end Sys2Proof.Machine

/-! The statements of 45_self_test.md. -/

namespace Sys2Proof.Machine

open Sys2Proof

/-- Settles O39: row `r` is event `r` after the stale page, and its columns are those of the line of its 24 characters. -/
theorem selfTestRows : Obligations.SelfTestRows := by
  unfold Obligations.SelfTestRows
  intro s hmap
  obtain ⟨rows, hevents, hlength, hrows⟩ := markerStart_events hmap
  obtain ⟨later, hlater⟩ := markerStart_events_prefix s
  refine ⟨_, exec_selfTest s, fun r hr => ?_⟩
  have hr' : r < rows.length := by omega
  have hrow := List.getElem?_eq_getElem hr'
  obtain ⟨bitmap, he, hwf, hread⟩ := hrows r _ hrow
  have hbyte (k : Nat) :
      selfTestByte (24 * r + k) = if 24 * r + k = 0 then 0x5F#8 else BitVec.ofNat 8 (32 + 24 * r + k) := by
    rw [selfTestByte_eq, Nat.add_assoc 32]
  refine ⟨bitmap, ?_, hwf, fun k j hk hj _ => ?_⟩
  · rw [← hlater, hevents, List.append_assoc, List.drop_left, List.cons_append, List.getElem?_cons_succ,
      List.getElem?_append_left hr', hrow, he, selfTestSpan, List.map_map]
    simp only [Function.comp_def, hbyte]
  · rw [hread, lineColumn_of_getElem? (selfTestSpan_getElem? hk) hj, hbyte]

/-- Settles O51: the parts of the sequence from the marker on, each by its own equation. -/
theorem selfTestLastLines : Obligations.SelfTestLastLines := by
  unfold Obligations.SelfTestLastLines
  intro s hmap
  obtain ⟨rows, hevents, hlength, -⟩ := markerStart_events hmap
  have hline := markerStart_holdsLine hmap
  have htext := selfTestSpan_last ▸ hline.text
  obtain ⟨hmode, hrem, hdw, hul, halt, hcfg, hinput, hpos⟩ := markerStart_frame s
  refine ⟨doSelfTest s, markerStart s, markerEnd s, batteryEnd s, .flush [] s.page :: rows, exec_selfTest s,
    ⟨hmode, hrem, hdw, hul, halt, hcfg, hinput, hpos, hevents, congrArg Nat.succ hlength, hline.col, htext,
      hline.page, fun k j hk hj => ?_, fun c hc => ?_⟩, rfl, ?_, doSelfTest_events s⟩
  · have hbyte : selfTestByte (216 + k) = BitVec.ofNat 8 (248 + k) := by
      rw [selfTestByte_eq, if_neg (by omega), ← Nat.add_assoc]
    rw [hline.read, lineColumn_of_getElem? (selfTestSpan_getElem? hk) hj, hbyte]
  · rw [hline.read]
    exact lineColumn_past hc
  · rw [← flush_flush_eq]
    rfl

/-- Settles O38: ten events before the marker, two after each of the two open lists, and every one of them a Flush. -/
theorem selfTestEmitsFourteenFlushes : Obligations.SelfTestEmitsFourteenFlushes := by
  unfold Obligations.SelfTestEmitsFourteenFlushes
  intro s hmap hmarker hbattery
  obtain ⟨rows, hevents, hlength, hrows⟩ := markerStart_events hmap
  have hline := markerStart_holdsLine hmap
  obtain ⟨-, -, hdw, hul, halt, hcfg, -, -⟩ := markerStart_frame s
  have hlen : (markerStart s).text.length = 7 := by rw [hline.text, List.length_map, selfTestSpan_length]
  have hm : (markerEnd s).events = (markerStart s).events := hmarker _ hcfg hdw hul halt hline.col hlen
  obtain ⟨hcfg', hdw', hul', halt'⟩ := batteryStart_frame s
  have hb : (batteryEnd s).events = (batteryStart s).events := hbattery _ hcfg' hdw' hul' halt' rfl rfl
  refine ⟨doSelfTest s, .flush [] s.page :: (rows ++
    [.flush (markerEnd s).text (markerEnd s).page, .flush [] [],
      .flush (batteryEnd s).text (batteryEnd s).page, .flush [] []]), exec_selfTest s, ?_, ?_, fun e he => ?_⟩
  · rw [doSelfTest_events, hb, batteryStart, flush_flush_eq, hm, hevents]
    simp only [List.append_assoc, List.cons_append, List.nil_append]
  · rw [List.length_cons, List.length_append, hlength]
    rfl
  · rcases List.mem_cons.mp he with rfl | he
    · exact ⟨_, _, rfl⟩
    rcases List.mem_append.mp he with hrow | hlast
    · obtain ⟨r, hr⟩ := List.mem_iff_getElem?.mp hrow
      obtain ⟨bitmap, rfl, -⟩ := hrows r e hr
      exact ⟨_, _, rfl⟩
    · simp only [List.mem_cons, List.not_mem_nil, or_false] at hlast
      rcases hlast with rfl | rfl | rfl | rfl
      all_goals exact ⟨_, _, rfl⟩

/-- Settles O50: the operations are a left fold, `Char` is PrintChar as CHAR is, and `Col` is the run of its copies. -/
theorem selfTestOperationsRunInOrder : Obligations.SelfTestOperationsRunInOrder := by
  unfold Obligations.SelfTestOperationsRunInOrder
  refine fun u => ⟨rfl, fun _ _ => rfl, fun b => exec_char u b, fun hwf v => ?_⟩
  have hrun : runOps u [.col v] = putCols u (List.replicate (glyphWidth u) v) := appendCol_eq_putCols u v
  obtain ⟨page, col, hupdate⟩ := putCols_eq_update u (List.replicate (glyphWidth u) v)
  have hpage := putCols_wf (List.replicate (glyphWidth u) v) hwf
  have hcol := putCols_col (List.replicate (glyphWidth u) v) u
  have hread := putCols_read (List.replicate (glyphWidth u) v) hwf
  simp only [hupdate, List.length_replicate, pageWidth] at hpage hcol hread
  refine ⟨page, col, hrun.trans hupdate, hpage, hcol, fun c => ?_⟩
  rw [hread]
  by_cases hc : u.col.val ≤ c ∧ c < col.val
  · rw [if_pos hc, if_pos (by omega), List.getD_replicate _ (by omega)]
  · rw [if_neg hc, if_neg (by omega)]

end Sys2Proof.Machine

/-! SUPPORT. A character on its line as one run of columns (R240 to R246): the padding before it, its glyph and the padding
after it, and what stands at each column that the run takes. -/

namespace Sys2Proof.Machine

open Sys2Proof

/-- On a full line a run of columns is discarded (R70). -/
theorem putCols_of_full {s : State} (h : s.col.val = 166) (vs : List Byte) : putCols s vs = s := by
  induction vs with
  | nil => rfl
  | cons v vs ih => rw [putCols_cons, putCol_of_full h, ih]

/-- The columns that AfterPad puts after a glyph that ends before column `stop` (R244, D14). Under IF_ROOM some of them may
be past the line's end, where PutCol discards them. -/
def trailWidth (rule : AfterPadRule) (stop kp : Nat) : Nat :=
  match rule with
  | .ifRoom => kp
  | .ifNotLast => if stop + kp ≤ 165 then kp else 0

/-- AfterPad as a run. -/
theorem afterPad_eq_putCols (s : State) (p : Byte) {k : Nat} (hk : k = 1 ∨ k = 2) :
    afterPad s p k = putCols s (List.replicate (trailWidth s.cfg.afterPad s.col.val k) p) := by
  have hpad : padCol s p k = putCols s (List.replicate k p) := by
    rw [padCol_eq_putCols]
    rcases hk with rfl | rfl
    · rfl
    · rfl
  have hlt := s.col.isLt
  unfold afterPad
  cases hrule : s.cfg.afterPad with
  | ifRoom =>
    simp only [afterPadDue, hrule, decide_eq_true_iff, trailWidth, pageWidth]
    split
    · exact hpad
    · exact (putCols_of_full (by omega) _).symm
  | ifNotLast =>
    simp only [afterPadDue, hrule, decide_eq_true_iff, trailWidth]
    split
    · exact hpad
    · rfl

/-- The column at which the next character's glyph starts, if it fits (R243). -/
def glyphStart (s : State) : Nat := s.col.val + leadWidth s

/-- The column after the last one of that glyph. -/
def glyphStop (s : State) : Nat := glyphStart s + 5 * glyphWidth s

theorem glyphStop_le_of_fits {s : State} (h : wraps s = false) : glyphStop s ≤ 166 := by
  have hroom : s.col.val + neededColumns s ≤ 166 := Nat.not_lt.mp (of_decide_eq_false h)
  unfold neededColumns at hroom
  unfold glyphStop glyphStart
  omega

/-- The padding after the next character, if it fits. -/
def charTrail (s : State) : Nat := trailWidth s.cfg.afterPad (glyphStop s) (padWidth s)

/-- Everything that a fitting character with the glyph `g` puts on its line. -/
def placedRun (s : State) (g : Glyph) : List Byte :=
  List.replicate (leadWidth s) (padValue s.ul) ++ glyphRun s.ul (glyphWidth s) g ++
    List.replicate (charTrail s) (padValue s.ul)

/-- What a fitting character with the glyph `g` puts at column `c` of its run (R242). -/
def charColumn (s : State) (g : Glyph) (c : Nat) : Byte :=
  if glyphStart s ≤ c ∧ c < glyphStop s then
    columnValue s.ul (g.columns.getD ((c - glyphStart s) / glyphWidth s) 0#8)
  else padValue s.ul

theorem placedRun_end (s : State) (g : Glyph) : s.col.val + (placedRun s g).length = glyphStop s + charTrail s := by
  simp only [placedRun, List.length_append, List.length_replicate, glyphRun_length, glyphStop, glyphStart]
  omega

/-- The run part by part: padding, glyph, padding. -/
theorem placedRun_getD {s : State} (g : Glyph) {c : Nat} (hlo : s.col.val ≤ c)
    (hhi : c < s.col.val + (placedRun s g).length) : (placedRun s g).getD (c - s.col.val) 0#8 = charColumn s g c := by
  rw [placedRun_end] at hhi
  unfold placedRun charColumn
  rw [glyphStop, glyphStart] at *
  by_cases hstop : c < s.col.val + leadWidth s + 5 * glyphWidth s
  · rw [List.getD_append _ _ _ _ (by rw [List.length_append, List.length_replicate, glyphRun_length]; omega)]
    by_cases hstart : s.col.val + leadWidth s ≤ c
    · rw [if_pos ⟨hstart, hstop⟩, List.getD_append_right _ _ _ _ (by rw [List.length_replicate]; omega),
        List.length_replicate, Nat.sub_sub, glyphRun_getD s.ul (glyphWidth_cases s) g (by omega)]
    · rw [if_neg fun hc => hstart hc.1, List.getD_append _ _ _ _ (by rw [List.length_replicate]; omega),
        List.getD_replicate _ (by omega)]
  · rw [if_neg fun hc => hstop hc.2,
      List.getD_append_right _ _ _ _ (by rw [List.length_append, List.length_replicate, glyphRun_length]; omega),
      List.length_append, List.length_replicate, glyphRun_length, List.getD_replicate _ (by omega)]

/-- A glyph that fits is one run of columns (R243, R244). -/
theorem placeGlyph_eq_putCols {s : State} (h : wraps s = false) (g : Glyph) :
    placeGlyph s g = putCols s (placedRun s g) := by
  obtain ⟨hcol, -⟩ := putCols_col_of_fits h (padValue s.ul) s.ul g
  rw [placeGlyph_of_fits h, afterPad_eq_putCols _ _ (padWidth_cases s), putCols_cfg, hcol, ← putCols_append]
  rfl

section Placed

variable {s : State} {b : Byte} (hmap : unmappable s.cfg (activeCharset s) b = false)

include hmap

theorem printChar_of_mappable :
    printChar s b = appendText (placeGlyph s (fontRead (activeFont s) b)) (decodeChar (activeCharset s) b) :=
  if_neg (Bool.eq_false_iff.mp hmap)

/-- A character that does not fit is printed as on the fresh line after a flush (R243). -/
theorem printChar_of_wraps (hw : wraps s = true) : printChar s b = printChar (flush s) b := by
  have hmap' : unmappable (flush s).cfg (activeCharset (flush s)) b = false := hmap
  rw [printChar_of_mappable hmap, printChar_of_mappable hmap', placeGlyph_of_wraps hw]
  rfl

variable (hw : wraps s = false)

include hw

theorem printChar_of_fits :
    printChar s b =
      appendText (putCols s (placedRun s (fontRead (activeFont s) b))) (decodeChar (activeCharset s) b) := by
  rw [printChar_of_mappable hmap, placeGlyph_eq_putCols hw]

theorem printChar_text_of_fits : (printChar s b).text = s.text ++ [decodeChar (activeCharset s) b] := by
  rw [printChar_of_fits hmap hw, appendText_text, putCols_field State.text (fun t v => putCol_text t v)]

theorem printChar_events_of_fits : (printChar s b).events = s.events := by
  rw [printChar_of_fits hmap hw, appendText_events]
  exact putCols_field State.events (fun t v => putCol_events t v) s _

theorem printChar_col_of_fits : (printChar s b).col.val = min (glyphStop s + charTrail s) 166 := by
  rw [printChar_of_fits hmap hw, appendText_col, putCols_col, placedRun_end]

/-- The columns passed over are written through the column write policy, and no other column changes (R71, R243). -/
theorem printChar_read_of_fits (hwf : PageCanonical s) (c : Nat) :
    (printChar s b).page.read c =
      if s.col.val ≤ c ∧ c < (printChar s b).col.val then
        storedColumn s.cfg.columnWrite (s.page.read c) (charColumn s (fontRead (activeFont s) b) c)
      else s.page.read c := by
  have hcol := printChar_col_of_fits hmap hw
  rw [← placedRun_end s (fontRead (activeFont s) b)] at hcol
  rw [hcol, printChar_of_fits hmap hw, appendText_page, putCols_read _ hwf, pageWidth]
  by_cases hc : s.col.val ≤ c ∧ c < min (s.col.val + (placedRun s (fontRead (activeFont s) b)).length) 166
  · obtain ⟨hlo, hhi⟩ := hc
    rw [if_pos ⟨hlo, by omega, by omega⟩, if_pos ⟨hlo, hhi⟩, placedRun_getD _ hlo (by omega)]
  · rw [if_neg hc, if_neg (by omega)]

end Placed

end Sys2Proof.Machine

/-! SUPPORT. A run of normal-width characters from column 0 over any page, with or without underline (R247). -/

namespace Sys2Proof.Machine

open Sys2Proof

/-- In TEXT a byte that is not intercepted is printed (R91, R154). -/
theorem step_char {s : State} {b : Byte} {rest : List Byte} (hm : s.mode = .text) (hok : charOperandOk b = true)
    (hin : s.input = b :: rest) : step s = .next (printChar (takeByte s rest) b) := by
  have hdecode : decode s.cfg.escMap .text b = .char b := decodeText_of_charOperandOk hok
  rw [step_of_input_cons hin, hm, hdecode, exec_char]

/-- A padding column is a blank column with the underline bit (R242). -/
theorem columnValue_zero (ul : Bool) : columnValue ul 0#8 = padValue ul := by
  cases ul <;> rfl

/-- `t` is what `s` becomes when the characters `bs` are printed from column 0: their glyphs, padding between two of them
and no further than the column, over what stood on the page (R247). -/
structure PrintedLine (s : State) (bs : List Byte) (t : State) : Prop where
  mode : t.mode = s.mode
  dw : t.dw = false
  ul : t.ul = s.ul
  alt : t.alt = s.alt
  cfg : t.cfg = s.cfg
  events : t.events = s.events
  text : t.text = bs.map (decodeChar (activeCharset s))
  col : t.col.val = min (7 * bs.length - 1) 166
  page : PageCanonical t
  read : ∀ c, t.page.read c =
    if c < t.col.val then
      storedColumn s.cfg.columnWrite (s.page.read c) (columnValue s.ul (lineColumn (activeFont s) bs c))
    else s.page.read c

section Printed

variable {s t : State} {bs : List Byte}

/-- Before the first character. -/
theorem PrintedLine.nil (hwf : PageCanonical s) (hdw : s.dw = false) (hcol : s.col.val = 0) (htext : s.text = []) :
    PrintedLine s [] s :=
  ⟨rfl, hdw, rfl, rfl, rfl, rfl, htext, hcol, hwf, fun c => (if_neg (by omega)).symm⟩

/-- Taking a byte from the port does not touch the line. -/
theorem PrintedLine.takeByte (h : PrintedLine s bs t) (rest : List Byte) : PrintedLine s bs (takeByte t rest) :=
  ⟨h.mode, h.dw, h.ul, h.alt, h.cfg, h.events, h.text, h.col, h.page, h.read⟩

theorem PrintedLine.activeCharset_eq (h : PrintedLine s bs t) : activeCharset t = activeCharset s := by
  rw [activeCharset, activeCharset, h.cfg, h.alt]

theorem PrintedLine.activeFont_eq (h : PrintedLine s bs t) : activeFont t = activeFont s := by
  rw [activeFont, activeFont, h.cfg, h.alt]

theorem PrintedLine.isFirst_iff (h : PrintedLine s bs t) : isFirst t = true ↔ bs.length = 0 := by
  cases hp : t.cfg.firstTest with
  | columnZero =>
    rw [isFirst_iff_of_columnZero hp, h.col]
    omega
  | textEmpty => rw [isFirst_iff_of_textEmpty hp, h.text, List.map_eq_nil_iff, List.length_eq_zero_iff]

/-- With fewer than 24 characters on the line the next glyph starts at a multiple of seven columns. -/
theorem PrintedLine.glyphStart_eq (h : PrintedLine s bs t) (hn : bs.length < 24) : glyphStart t = 7 * bs.length := by
  rw [glyphStart, leadWidth, h.col, padWidth_of_single h.dw]
  simp only [h.isFirst_iff]
  split
  · omega
  · omega

theorem PrintedLine.glyphStop_eq (h : PrintedLine s bs t) (hn : bs.length < 24) :
    glyphStop t = 7 * bs.length + 5 := by
  rw [glyphStop, h.glyphStart_eq hn, glyphWidth_of_single h.dw]

theorem PrintedLine.fits (h : PrintedLine s bs t) (hn : bs.length < 24) : wraps t = false := by
  have hstop := h.glyphStop_eq hn
  unfold glyphStop glyphStart at hstop
  refine decide_eq_false ?_
  rw [neededColumns, pageWidth]
  omega

/-- From the current column on, what the next character puts is what the longer line holds. -/
theorem PrintedLine.charColumn_eq (h : PrintedLine s bs t) (hn : bs.length < 24) (b : Byte) {c : Nat}
    (hc : t.col.val ≤ c) :
    charColumn t (fontRead (activeFont t) b) c =
      columnValue s.ul (lineColumn (activeFont s) (bs ++ [b]) c) := by
  rw [charColumn, h.glyphStart_eq hn, h.glyphStop_eq hn, glyphWidth_of_single h.dw, Nat.div_one, h.activeFont_eq,
    h.ul, lineColumn_concat]
  split
  · rfl
  · have hblank : lineColumn (activeFont s) bs c = 0#8 := by
      rw [h.col] at hc
      by_cases hlast : c + 1 = 7 * bs.length
      · exact lineColumn_last hlast
      · exact lineColumn_past (by omega)
    rw [hblank, columnValue_zero]

/-- Under both rules one padding column follows a character, but none after the 24th (R244, R247). -/
theorem PrintedLine.printChar_col (h : PrintedLine s bs t) (hn : bs.length < 24) {b : Byte}
    (hmap : unmappable t.cfg (activeCharset t) b = false) :
    (printChar t b).col.val = min (7 * (bs.length + 1) - 1) 166 := by
  rw [printChar_col_of_fits hmap (h.fits hn), charTrail, h.glyphStop_eq hn, padWidth_of_single h.dw]
  cases t.cfg.afterPad with
  | ifRoom =>
    simp only [trailWidth]
    omega
  | ifNotLast =>
    simp only [trailWidth]
    split
    · omega
    · omega

/-- One more character, on a line of fewer than 24. -/
theorem PrintedLine.printChar (h : PrintedLine s bs t) (hn : bs.length < 24) {b : Byte}
    (hmap : unmappable t.cfg (activeCharset t) b = false) : PrintedLine s (bs ++ [b]) (printChar t b) where
  mode := (printChar_mode t b).trans h.mode
  dw := (printChar_dw t b).trans h.dw
  ul := (printChar_ul t b).trans h.ul
  alt := (printChar_alt t b).trans h.alt
  cfg := (printChar_cfg t b).trans h.cfg
  events := (printChar_events_of_fits hmap (h.fits hn)).trans h.events
  text := by
    rw [printChar_text_of_fits hmap (h.fits hn), h.text, h.activeCharset_eq, List.map_append]
    rfl
  col := by rw [h.printChar_col hn hmap, List.length_append, List.length_singleton]
  page := wf_kept.printChar b h.page
  read c := by
    have hcol := h.col
    have hnext := h.printChar_col hn hmap
    rw [printChar_read_of_fits hmap (h.fits hn) h.page, h.cfg, h.read]
    by_cases hold : c < t.col.val
    · have hsame : lineColumn (activeFont s) (bs ++ [b]) c = lineColumn (activeFont s) bs c := by
        rw [lineColumn_concat, if_neg (by omega)]
      rw [if_neg (by omega), if_pos hold, if_pos (by omega), hsame]
    · have hle : t.col.val ≤ c := Nat.le_of_not_lt hold
      rw [if_neg hold, h.charColumn_eq hn b hle]
      simp only [hle, true_and]

/-- A glyph column of the line. -/
theorem PrintedLine.read_glyph (h : PrintedLine s bs t) (hn : bs.length ≤ 24) {i j : Nat} (hi : i < bs.length)
    (hj : j < 5) :
    t.page.read (7 * i + j) =
      storedColumn s.cfg.columnWrite (s.page.read (7 * i + j))
        (columnValue s.ul ((Config.fontTable (activeFont s) bs[i]).columns.getD j 0#8)) := by
  have hcol := h.col
  rw [h.read, if_pos (by omega), lineColumn_of_getElem? (List.getElem?_eq_getElem hi) (by omega)]

/-- A padding column of the line, where the line has come so far. -/
theorem PrintedLine.read_padding (h : PrintedLine s bs t) {i j : Nat} (hi : i < bs.length) (hj : j = 5 ∨ j = 6)
    (hc : 7 * i + j < t.col.val) :
    t.page.read (7 * i + j) = storedColumn s.cfg.columnWrite (s.page.read (7 * i + j)) (padValue s.ul) := by
  rw [h.read, if_pos hc, lineColumn_of_getElem? (List.getElem?_eq_getElem hi) (by omega),
    columns_getD_past _ (by omega), columnValue_zero]

end Printed

/-- A run over the line `bytes` from `s` on, with `left` still to come before `rest`. -/
structure PrintingLine (s : State) (bytes rest left : List Byte) (t : State) : Prop where
  printed : ∃ bs, bytes = bs ++ left ∧ PrintedLine s bs t
  input : t.input = left ++ rest

/-- Each byte of such a run is a character of the line. -/
theorem PrintingLine.step {s t : State} {bytes rest left : List Byte} {b : Byte} (hm : s.mode = .text)
    (hmap : s.cfg.unmappable = []) (hn : bytes.length ≤ 24) (hok : ∀ b ∈ bytes, charOperandOk b = true)
    (h : PrintingLine s bytes rest (b :: left) t) :
    ∃ u, step t = .next u ∧ PrintingLine s bytes rest left u := by
  obtain ⟨bs, hbytes, hline⟩ := h.printed
  have hin : t.input = b :: (left ++ rest) := h.input
  have hb : charOperandOk b = true := hok b (by rw [hbytes]; exact List.mem_append_right bs List.mem_cons_self)
  have hroom : bs.length < 24 := by
    rw [hbytes, List.length_append, List.length_cons] at hn
    omega
  have htaken := hline.takeByte (left ++ rest)
  have hmap' : unmappable (takeByte t (left ++ rest)).cfg (activeCharset (takeByte t (left ++ rest))) b = false := by
    rw [Bool.eq_false_iff, Ne, unmappable_iff, htaken.cfg, hmap]
    exact List.not_mem_nil
  refine ⟨_, step_char (hline.mode.trans hm) hb hin, ⟨bs ++ [b], ?_, htaken.printChar hroom hmap'⟩, ?_⟩
  · rw [hbytes, List.append_assoc, List.singleton_append]
  · rw [printChar_input, takeByte_input]

end Sys2Proof.Machine

/-! The statements of 46_line_assembler.md. -/

namespace Sys2Proof.Machine

open Sys2Proof

/-- Settles O20: the character is one run of columns, and the page is read back part by part. -/
theorem charPlacedOnItsLine : Obligations.CharPlacedOnItsLine := by
  unfold Obligations.CharPlacedOnItsLine
  intro s b hwf hmap hroom
  have hw : wraps s = false := Bool.eq_false_iff.mpr fun h => Nat.not_lt.mpr hroom ((wraps_iff s).mp h)
  have hstop : glyphStop s ≤ 166 := glyphStop_le_of_fits hw
  have hcol := printChar_col_of_fits hmap hw
  refine ⟨printChar s b, exec_char s b, printChar_mode s b, printChar_rem s b, printChar_dw s b, printChar_ul s b,
    printChar_alt s b, printChar_cfg s b, printChar_input s b, printChar_pos s b, printChar_events_of_fits hmap hw,
    wf_kept.printChar b hwf, printChar_text_of_fits hmap hw, glyphStart s, glyphStop s, rfl, rfl, ?_, fun c => ?_⟩
  · rw [hcol, charTrail]
    cases s.cfg.afterPad with
    | ifRoom => rfl
    | ifNotLast =>
      simp only [trailWidth]
      split
      · omega
      · omega
  · have hstart : s.col.val ≤ glyphStart s := Nat.le_add_right _ _
    have horder : glyphStart s ≤ glyphStop s := Nat.le_add_right _ _
    rw [printChar_read_of_fits hmap hw hwf, charColumn]
    by_cases hglyph : glyphStart s ≤ c ∧ c < glyphStop s
    · rw [if_pos hglyph, if_pos hglyph, if_pos (by omega), if_neg (by omega)]
      rfl
    · rw [if_neg hglyph, if_neg hglyph]
      refine if_congr ?_ rfl rfl
      omega

/-- Settles O21: printing is printing on the flushed line, where a character fits. -/
theorem charThatDoesNotFitWraps : Obligations.CharThatDoesNotFitWraps := by
  unfold Obligations.CharThatDoesNotFitWraps
  intro s b hmap hroom
  have hfresh : printChar s b = printChar (flush s) b := printChar_of_wraps hmap ((wraps_iff s).mpr hroom)
  have hmap' : unmappable (flush s).cfg (activeCharset (flush s)) b = false := hmap
  have htext := printChar_text_of_fits hmap' (wraps_flush s)
  have hevents := printChar_events_of_fits hmap' (wraps_flush s)
  rw [← flush_eq, exec_char, exec_char, hfresh]
  exact ⟨rfl, _, rfl, htext, hevents⟩

/-- Settles O22, by the induction over the run: after each byte the line holds the characters taken so far. -/
theorem normalLineHoldsTwentyFour : Obligations.NormalLineHoldsTwentyFour := by
  unfold Obligations.NormalLineHoldsTwentyFour
  intro s bytes rest hwf hm hdw hmap hcol htext hin hn hok
  have hstart : PrintingLine s bytes rest bytes s := ⟨⟨[], rfl, .nil hwf hdw hcol htext⟩, hin⟩
  obtain ⟨t, hrun, hend⟩ :=
    run_over_bytes (fun _ _ _ h => h.step hm hmap hn hok) bytes.length bytes s (Nat.le_refl _) hstart
  rw [List.drop_length] at hend
  obtain ⟨bs, hbytes, hline⟩ := hend.printed
  obtain rfl : bytes = bs := hbytes.trans (List.append_nil bs)
  refine ⟨t, hrun, hend.input, hline.events, hline.text, ?_, hline.page, fun i j hi hj => hline.read_glyph hn hi hj,
    fun i j hi hj hc => hline.read_padding hi hj hc, fun c hc => ?_⟩
  · rw [hline.col]
    split
    · omega
    · split
      · omega
      · omega
  · rw [hline.read, if_neg (by omega)]

end Sys2Proof.Machine

/-! SUPPORT. Which warnings each operation raises (R271 to R274): all those among the events it adds meet a condition on
their code and their information. -/

namespace Sys2Proof.Machine

open Sys2Proof

/-- Between `s` and `t` events were added, and every warning among them meets `W`. -/
def AddsWarnings (W : WarnCode → Byte → Prop) (s t : State) : Prop :=
  ∃ evs, t.events = s.events ++ evs ∧ ∀ c i, Event.warn c i ∈ evs → W c i

section Warnings

variable {W : WarnCode → Byte → Prop} {s t u : State}

theorem AddsWarnings.of_events_eq (h : t.events = s.events) : AddsWarnings W s t :=
  ⟨[], by rw [h, List.append_nil], fun _ _ hm => nomatch hm⟩

theorem AddsWarnings.of_events_append_warn {c : WarnCode} {i : Byte} (h : t.events = s.events ++ [.warn c i])
    (hW : W c i) : AddsWarnings W s t := by
  refine ⟨[.warn c i], h, fun c' i' hm => ?_⟩
  cases List.mem_singleton.mp hm
  exact hW

theorem AddsWarnings.trans (h : AddsWarnings W s t) (h' : AddsWarnings W t u) : AddsWarnings W s u := by
  obtain ⟨evs, hevs, hW⟩ := h
  obtain ⟨evs', hevs', hW'⟩ := h'
  refine ⟨evs ++ evs', by rw [hevs', hevs, List.append_assoc], fun c i hm => ?_⟩
  rcases List.mem_append.mp hm with hm | hm
  · exact hW c i hm
  · exact hW' c i hm

theorem AddsWarnings.mono {W' : WarnCode → Byte → Prop} (h : AddsWarnings W s t) (himp : ∀ c i, W c i → W' c i) :
    AddsWarnings W' s t := by
  obtain ⟨evs, hevs, hW⟩ := h
  exact ⟨evs, hevs, fun c i hm => himp c i (hW c i hm)⟩

/-- What was added is determined by the two observations. -/
theorem AddsWarnings.of_mem (h : AddsWarnings W s t) {evs : List Event} (ht : t.events = s.events ++ evs) {c : WarnCode}
    {i : Byte} (hm : Event.warn c i ∈ evs) : W c i := by
  obtain ⟨added, hadded, hW⟩ := h
  have hevs : evs = added := List.append_cancel_left (ht.symm.trans hadded)
  exact hW c i (hevs ▸ hm)

/-- A flush raises no warning (R72). -/
theorem flush_addsWarnings (s : State) : AddsWarnings W s (flush s) :=
  ⟨[.flush s.text s.page], flush_events s, fun _ _ hm => nomatch List.mem_singleton.mp hm⟩

end Warnings

/-- A header warns of its own length, and only when that is 0 or above 166 (R180, R272). -/
theorem graphicsHeader_addsWarnings (s : State) (n : Byte) :
    AddsWarnings (fun c i => c = .gfxLength ∧ i = n ∧ (n.toNat = 0 ∨ n.toNat > 166)) s (graphicsHeader s n) := by
  have hevents := congrArg State.events (graphicsHeader_eq_update s n)
  by_cases hlength : n.toNat = 0 ∨ n.toNat > 166
  · rw [if_pos hlength] at hevents
    exact .of_events_append_warn hevents ⟨rfl, rfl, hlength⟩
  · rw [if_neg hlength] at hevents
    exact .of_events_eq (hevents.trans (List.append_nil _))

/-- A forced flush warns with the count (R202, R273). -/
theorem forcedFlush_addsWarnings (s : State) :
    AddsWarnings (fun c i => c = .gfxOverflow ∧ i = s.rem) s (forcedFlush s) :=
  .trans (.of_events_append_warn (raiseWarn_events s .gfxOverflow s.rem) ⟨rfl, rfl⟩) (flush_addsWarnings _)

/-- A payload byte warns only by a forced flush: of a full line, or before the duplicate at column 165 (R202, R203). -/
theorem drawPayload_addsWarnings (s : State) (b : Byte) :
    AddsWarnings (fun c i => c = .gfxOverflow ∧ i = s.rem ∧
      (s.col.val = 166 ∨ (s.dw = true ∧ s.col.val = 165 ∧ s.cfg.dupOverflow = .flushThenWrite))) s (drawPayload s b) := by
  by_cases hfull : s.col.val = 166
  · have hdrawn : (drawPayload s b).events = (forcedFlush s).events := by
      rw [drawPayload_of_full hfull, drawPayload_of_fits (forcedFlush_fits s)]
      exact putCols_field State.events (fun t v => putCol_events t v) _ _
    exact ((forcedFlush_addsWarnings s).trans (.of_events_eq hdrawn)).mono fun _ _ ⟨hc, hi⟩ => ⟨hc, hi, .inl hfull⟩
  by_cases hdup : s.dw = true ∧ s.col.val = 165 ∧ s.cfg.dupOverflow = .flushThenWrite
  · obtain ⟨hdw, hcol, hpolicy⟩ := hdup
    have hforced := forcedFlush_addsWarnings (putCol s (columnValue s.ul b))
    rw [putCol_rem] at hforced
    rw [drawPayload_duplicate_flushes hdw hcol hpolicy]
    refine .trans (.of_events_eq (putCol_events s (columnValue s.ul b))) (.trans ?_ (.of_events_eq (putCol_events _ _)))
    exact hforced.mono fun _ _ ⟨hc, hi⟩ => ⟨hc, hi, .inr ⟨hdw, hcol, hpolicy⟩⟩
  · exact .of_events_eq (drawPayload_events_of_room hfull hdup b)

/-- A printed byte warns only of itself, and only when it is unmappable (R130, R246, R274). -/
theorem printChar_addsWarnings (s : State) (b : Byte) :
    AddsWarnings (fun c i => c = .unmappable ∧ i = b ∧ unmappable s.cfg (activeCharset s) b = true) s (printChar s b) := by
  cases hmap : unmappable s.cfg (activeCharset s) b with
  | true =>
    rw [printChar_of_unmappable hmap]
    exact .of_events_append_warn (raiseWarn_events s .unmappable b) ⟨rfl, rfl, rfl⟩
  | false =>
    cases hw : wraps s with
    | false => exact .of_events_eq (printChar_events_of_fits hmap hw)
    | true =>
      have hmap' : unmappable (flush s).cfg (activeCharset (flush s)) b = false := hmap
      rw [printChar_of_wraps hmap hw]
      exact .trans (flush_addsWarnings s) (.of_events_eq (printChar_events_of_fits hmap' (wraps_flush s)))

/-- Part of a self-test that began in `s` has led to `t`: the charset is that of a clear alternate flag (R222), and only
bytes that this charset cannot map were warned of. -/
structure SelfTestPart (s t : State) : Prop where
  cfg : t.cfg = s.cfg
  alt : t.alt = false
  warnings : AddsWarnings
    (fun c i => c = .unmappable ∧ unmappable s.cfg (charsetSel s.cfg s.cfg.modelFlag false) i = true) s t

section SelfTestPart

variable {s t : State}

theorem SelfTestPart.flush (h : SelfTestPart s t) : SelfTestPart s (flush t) :=
  ⟨h.cfg, h.alt, h.warnings.trans (flush_addsWarnings t)⟩

theorem SelfTestPart.printChar (h : SelfTestPart s t) (b : Byte) : SelfTestPart s (printChar t b) := by
  refine ⟨(printChar_cfg t b).trans h.cfg, (printChar_alt t b).trans h.alt, h.warnings.trans ?_⟩
  refine (printChar_addsWarnings t b).mono ?_
  rintro c i ⟨hc, rfl, hmap⟩
  rw [activeCharset, h.cfg, h.alt] at hmap
  exact ⟨hc, hmap⟩

theorem SelfTestPart.runOps (h : SelfTestPart s t) (ops : List SelfTestOp) : SelfTestPart s (runOps t ops) := by
  refine List.foldlRecOn ops runOp h fun u hu o _ => ?_
  cases o with
  | char b => exact hu.printChar b
  | col v =>
    exact ⟨(appendCol_cfg u v).trans hu.cfg, (appendCol_alt u v).trans hu.alt,
      hu.warnings.trans (.of_events_eq (appendCol_events u v))⟩

theorem SelfTestPart.selfTestChars (h : SelfTestPart s t) : SelfTestPart s (selfTestChars t) := by
  refine List.foldlRecOn _ selfTestChar h fun u hu i _ => ?_
  unfold selfTestChar
  simp only
  split
  · exact (hu.printChar _).flush
  · exact hu.printChar _

end SelfTestPart

/-- The self-test warns only of bytes that its own printing finds unmappable (R172, R220, R274). -/
theorem doSelfTest_addsWarnings (s : State) :
    AddsWarnings (fun c i => c = .unmappable ∧ unmappable s.cfg (charsetSel s.cfg s.cfg.modelFlag false) i = true) s
      (doSelfTest s) := by
  have hreset : SelfTestPart s (doReset s) := ⟨rfl, rfl, .of_events_eq rfl⟩
  have hmarker : SelfTestPart s (markerEnd s) := hreset.flush.selfTestChars.runOps s.cfg.selfTestMarker
  have hbattery : SelfTestPart s (batteryEnd s) := hmarker.flush.flush.runOps s.cfg.selfTestBattery
  have hend : SelfTestPart s (selfTestSequence (doReset s)) := selfTestSequence_doReset s ▸ hbattery.flush.flush
  exact hend.warnings.trans (.of_events_eq (setMode_events _ .text))

end Sys2Proof.Machine

/-! SUPPORT. The two ports do not steer an instruction (R275, R311): every operation commutes with a change of what has been
emitted, of what is offered and of the position. -/

namespace Sys2Proof.Machine

open Sys2Proof

/-- The same block in another session: `before` emitted ahead of its own events, `later` offered, at position `at'`. -/
def inSession (before : List Event) (later : List Byte) (at' : Nat) (s : State) : State :=
  { s with events := before ++ s.events, input := later, pos := at' }

section InSession

variable (before : List Event) (later : List Byte) (at' : Nat) (s : State)

@[simp] theorem inSession_rem : (inSession before later at' s).rem = s.rem := rfl
@[simp] theorem inSession_dw : (inSession before later at' s).dw = s.dw := rfl
@[simp] theorem inSession_ul : (inSession before later at' s).ul = s.ul := rfl
@[simp] theorem inSession_cfg : (inSession before later at' s).cfg = s.cfg := rfl
@[simp] theorem activeCharset_inSession : activeCharset (inSession before later at' s) = activeCharset s := rfl
@[simp] theorem activeFont_inSession : activeFont (inSession before later at' s) = activeFont s := rfl
@[simp] theorem wraps_inSession : wraps (inSession before later at' s) = wraps s := rfl
@[simp] theorem lineFull_inSession : lineFull (inSession before later at' s) = lineFull s := rfl

theorem emit_inSession (e : Event) :
    emit (inSession before later at' s) e = inSession before later at' (emit s e) := by
  simp only [emit, inSession, List.append_assoc]

theorem raiseWarn_inSession (c : WarnCode) (i : Byte) :
    raiseWarn (inSession before later at' s) c i = inSession before later at' (raiseWarn s c i) :=
  emit_inSession before later at' s (.warn c i)

theorem flush_inSession : flush (inSession before later at' s) = inSession before later at' (flush s) := by
  simp only [flush, emit, inSession, List.append_assoc]

theorem putCol_inSession (v : Byte) :
    putCol (inSession before later at' s) v = inSession before later at' (putCol s v) := by
  unfold putCol
  rw [apply_dite (inSession before later at')]
  rfl

theorem putCols_inSession (vs : List Byte) :
    putCols (inSession before later at' s) vs = inSession before later at' (putCols s vs) :=
  List.foldl_hom _ fun t v => putCol_inSession before later at' t v

theorem appendCol_inSession (v : Byte) :
    appendCol (inSession before later at' s) v = inSession before later at' (appendCol s v) := by
  rw [appendCol_eq_putCols, appendCol_eq_putCols]
  exact putCols_inSession before later at' s _

/-- A glyph that fits. -/
theorem placeGlyph_inSession_of_fits {s : State} (h : wraps s = false) (g : Glyph) :
    placeGlyph (inSession before later at' s) g = inSession before later at' (placeGlyph s g) := by
  have h' : wraps (inSession before later at' s) = false := h
  rw [placeGlyph_eq_putCols h, placeGlyph_eq_putCols h']
  exact putCols_inSession before later at' s _

theorem placeGlyph_inSession (g : Glyph) :
    placeGlyph (inSession before later at' s) g = inSession before later at' (placeGlyph s g) := by
  cases hw : wraps s with
  | false => exact placeGlyph_inSession_of_fits before later at' hw g
  | true =>
    have hw' : wraps (inSession before later at' s) = true := hw
    rw [placeGlyph_of_wraps hw, placeGlyph_of_wraps hw', flush_inSession]
    exact placeGlyph_inSession_of_fits before later at' (wraps_flush s) g

theorem appendText_inSession (cp : CodePoint) :
    appendText (inSession before later at' s) cp = inSession before later at' (appendText s cp) := rfl

theorem printChar_inSession (b : Byte) :
    printChar (inSession before later at' s) b = inSession before later at' (printChar s b) := by
  unfold printChar
  rw [inSession_cfg, activeCharset_inSession, activeFont_inSession, raiseWarn_inSession, placeGlyph_inSession,
    appendText_inSession, apply_ite (inSession before later at')]

theorem runOps_inSession (ops : List SelfTestOp) :
    runOps (inSession before later at' s) ops = inSession before later at' (runOps s ops) := by
  refine List.foldl_hom _ fun t o => ?_
  cases o with
  | char b => exact printChar_inSession before later at' t b
  | col v => exact appendCol_inSession before later at' t v

theorem selfTestChars_inSession :
    selfTestChars (inSession before later at' s) = inSession before later at' (selfTestChars s) := by
  refine List.foldl_hom _ fun t i => ?_
  unfold selfTestChar
  simp only [printChar_inSession, flush_inSession]
  split
  · rfl
  · rfl

theorem doSelfTest_inSession :
    doSelfTest (inSession before later at' s) = inSession before later at' (doSelfTest s) := by
  have hreset : doReset (inSession before later at' s) = inSession before later at' (doReset s) := rfl
  unfold doSelfTest selfTestSequence
  simp only [hreset, flush_inSession, selfTestChars_inSession, inSession_cfg, runOps_inSession]
  rfl

theorem forcedFlush_inSession :
    forcedFlush (inSession before later at' s) = inSession before later at' (forcedFlush s) := by
  rw [forcedFlush, raiseWarn_inSession, flush_inSession, inSession_rem, forcedFlush]

theorem duplicateRoom_inSession :
    duplicateRoom (inSession before later at' s) = inSession before later at' (duplicateRoom s) := by
  unfold duplicateRoom
  rw [lineFull_inSession, inSession_cfg, forcedFlush_inSession, apply_ite (inSession before later at')]

theorem drawPayload_inSession (b : Byte) :
    drawPayload (inSession before later at' s) b = inSession before later at' (drawPayload s b) := by
  have hroom : (if lineFull s = true then inSession before later at' (forcedFlush s) else inSession before later at' s) =
      inSession before later at' (if lineFull s = true then forcedFlush s else s) :=
    (apply_ite (inSession before later at') _ _ _).symm
  unfold drawPayload
  simp only [lineFull_inSession, forcedFlush_inSession, hroom, inSession_ul, putCol_inSession, inSession_dw,
    duplicateRoom_inSession]
  exact (apply_ite (inSession before later at') _ _ _).symm

theorem zeroCount_inSession :
    zeroCount (inSession before later at' s) = inSession before later at' (zeroCount s) := by
  unfold zeroCount
  rw [inSession_cfg]
  split
  · rfl
  · rfl
  · rfl

theorem countDown_inSession :
    countDown (inSession before later at' s) = inSession before later at' (countDown s) := by
  unfold countDown
  rw [zeroCount_inSession, inSession_rem]
  simp only
  split
  · split
    · rfl
    · rfl
  · rfl

theorem graphicsHeader_inSession (n : Byte) :
    graphicsHeader (inSession before later at' s) n = inSession before later at' (graphicsHeader s n) := by
  rw [graphicsHeader_eq_update, graphicsHeader_eq_update]
  simp only [inSession, List.append_assoc]
  rfl

/-- An instruction that answers in one session answers alike in another. -/
theorem exec_inSession {i : Instr} {s t : State} (h : exec i s = .next t) :
    exec i (inSession before later at' s) = .next (inSession before later at' t) := by
  cases i with
  | lf =>
    cases h
    rw [exec_lf, flush_inSession]
  | eol =>
    cases h
    rw [exec_eol, flush_inSession]
  | char b =>
    cases h
    rw [exec_char, printChar_inSession]
  | selfTest =>
    cases h
    rw [exec_selfTest, doSelfTest_inSession]
  | graphicsMode n =>
    obtain ⟨hn, rfl⟩ := exec_graphicsMode_next h
    rw [exec_graphicsMode _ (Nat.lt_succ_of_le hn), graphicsHeader_inSession]
  | gfxColumn p =>
    cases h
    rw [exec_gfxColumn, drawPayload_inSession, countDown_inSession]
  | escIntro | reset | startDoubleWide | stopDoubleWide | startUnderline | stopUnderline | startAltCharset
    | stopAltCharset =>
    cases h
    rfl

end InSession

end Sys2Proof.Machine

/-! The statements of 60_exceptions.md. -/

namespace Sys2Proof.Machine

open Sys2Proof

/-- Settles O43: each instruction's warnings by the lemma of its operation; an instruction that is no character, payload
byte, header or self-test raises none. -/
theorem warningsOnlyForTheirCauses : Obligations.WarningsOnlyForTheirCauses := by
  unfold Obligations.WarningsOnlyForTheirCauses
  intro i s t evs code info h hevs hmem
  have raised {W : WarnCode → Byte → Prop} (hW : AddsWarnings W s t) : W code info := hW.of_mem hevs hmem
  have silent (hno : AddsWarnings (fun _ _ => False) s t) : False := raised hno
  cases i with
  | char b =>
    cases h
    obtain ⟨rfl, rfl, hmap⟩ := raised (printChar_addsWarnings s b)
    exact .inl ⟨rfl, hmap⟩
  | selfTest =>
    cases h
    obtain ⟨rfl, hmap⟩ := raised (doSelfTest_addsWarnings s)
    exact .inr ⟨rfl, hmap⟩
  | graphicsMode n =>
    obtain ⟨-, rfl⟩ := exec_graphicsMode_next h
    obtain ⟨rfl, rfl, hlength⟩ := raised (graphicsHeader_addsWarnings s n)
    exact ⟨rfl, hlength⟩
  | gfxColumn p =>
    cases h
    obtain ⟨rfl, hinfo, hroom⟩ := raised ((drawPayload_addsWarnings s p).trans (.of_events_eq (countDown_events _)))
    exact ⟨⟨p, rfl⟩, hinfo, hroom⟩
  | lf | eol =>
    cases h
    exact (silent (flush_addsWarnings s)).elim
  | escIntro | reset | startDoubleWide | stopDoubleWide | startUnderline | stopUnderline | startAltCharset
    | stopAltCharset =>
    cases h
    exact (silent (.of_events_eq rfl)).elim

/-- Settles O45: the other session differs in the events before only, and the instruction leaves the input port as it
found it. -/
theorem observationDoesNotFeedBack : Obligations.ObservationDoesNotFeedBack := by
  unfold Obligations.ObservationDoesNotFeedBack
  intro i s t before h
  have hkept := exec_extendsSession h
  have hsession : inSession before s.input s.pos t = { t with events := before ++ t.events } := by
    rw [← hkept.input, ← hkept.pos]
    rfl
  rw [← hsession]
  exact exec_inSession before s.input s.pos h

end Sys2Proof.Machine

/-! SUPPORT. The resynchronisation of R303: bytes 0x0A count a pending payload down, and the first one that arrives in TEXT
flushes the line. -/

namespace Sys2Proof.Machine

open Sys2Proof

/-- A run that answers goes on from its answer. -/
theorem run_add_of_run {s t : State} {j : Nat} (h : Host.Core.run core j s = .next t) (k : Nat) :
    Host.Core.run core (j + k) s = Host.Core.run core k t := by
  induction j generalizing s with
  | zero =>
    cases h
    rw [Nat.zero_add]
  | succ j ih =>
    rw [Nat.succ_add]
    cases hstep : step s with
    | next u =>
      rw [run_succ_of_step hstep] at h ⊢
      exact ih h
    | fault r => exact nomatch r
    | refused r =>
      have hcore : core.step s = .refused r := hstep
      simp only [Host.Core.run, hcore] at h
      cases h

/-- How many bytes 0x0A lead from `s` to TEXT (R303): none from TEXT; the count in GRAPHICS, where the byte that finds a zero
count is taken too; after the introducer the header of length 10 that the first of them is, and its payload. -/
def bytesToText (s : State) : Nat :=
  match s.mode with
  | .text => 0
  | .escapePending => 11
  | .graphics => max 1 s.rem.toNat

theorem bytesToText_of_text {s : State} (h : s.mode = .text) : bytesToText s = 0 := by rw [bytesToText, h]

theorem bytesToText_of_escapePending {s : State} (h : s.mode = .escapePending) : bytesToText s = 11 := by
  rw [bytesToText, h]

theorem bytesToText_of_graphics {s : State} (h : s.mode = .graphics) : bytesToText s = max 1 s.rem.toNat := by
  rw [bytesToText, h]

/-- The two policies of R303, under which no payload outlasts its count by more than one byte (R182, R204). -/
def ResyncPolicy (p : GfxZeroPolicy) : Prop := p = .immediate ∨ p = .oneByte

/-- Under these policies a legal count is at most 247, and TEXT is as near (R22, R303). -/
theorem bytesToText_le {s : State} (hs : Legal s) (hp : ResyncPolicy s.cfg.gfxZero) : bytesToText s ≤ 247 := by
  cases hm : s.mode with
  | text =>
    rw [bytesToText_of_text hm]
    decide
  | escapePending =>
    rw [bytesToText_of_escapePending hm]
    decide
  | graphics =>
    rw [bytesToText_of_graphics hm]
    rcases hs.count.le_or_wrap256 hm with hle | hwrap
    · exact Nat.max_le.mpr ⟨by decide, hle⟩
    · rcases hp with hp | hp <;> exact nomatch hwrap.symm.trans hp

/-- The last byte of a count returns to TEXT, and so does the one byte that ONE_BYTE takes at a zero count; IMMEDIATE has no
zero count in GRAPHICS (R182, R200, R204). -/
theorem countDown_mode_of_last {s : State} (hs : CountLegal s) (hp : ResyncPolicy s.cfg.gfxZero)
    (hm : s.mode = .graphics) (hlast : s.rem.toNat ≤ 1) : (countDown s).mode = .text := by
  rcases Nat.eq_zero_or_pos s.rem.toNat with hzero | hpos
  · have honeByte : s.cfg.gfxZero = .oneByte := by
      refine hp.resolve_left fun himmediate => ?_
      have hlegal := hs hm
      rw [himmediate] at hlegal
      omega
    rw [countDown_of_zero (BitVec.eq_of_toNat_eq hzero), zeroCount_of_oneByte honeByte, setMode_mode]
  · rw [countDown_mode_of_pos hpos, if_pos (Nat.le_antisymm hlast hpos)]

/-- A payload byte brings TEXT nearer. -/
theorem bytesToText_countDown {s : State} (hs : CountLegal s) (hp : ResyncPolicy s.cfg.gfxZero) (hm : s.mode = .graphics) :
    bytesToText (countDown s) < bytesToText s := by
  rw [bytesToText_of_graphics hm]
  rcases Nat.lt_or_ge 1 s.rem.toNat with hmany | hlast
  · have hpos : 1 ≤ s.rem.toNat := Nat.le_of_lt hmany
    have hrem := countDown_rem_of_pos hpos
    have hmode : (countDown s).mode = .graphics := by
      rw [countDown_mode_of_pos hpos, if_neg (Nat.ne_of_gt hmany), hm]
    rw [bytesToText_of_graphics hmode, hrem]
    omega
  · rw [bytesToText_of_text (countDown_mode_of_last hs hp hm hlast)]
    exact Nat.lt_of_lt_of_le Nat.one_pos (Nat.le_max_left _ _)

/-- Where a byte 0x0A in TEXT leads: TEXT with an empty line (R72, R152). -/
structure FreshLine (s : State) : Prop where
  mode : s.mode = .text
  col : s.col = 0
  page : s.page = []
  text : s.text = []

/-- In TEXT a byte 0x0A flushes (R91, R152). -/
theorem step_lf_of_text {s : State} {rest : List Byte} (hm : s.mode = .text) (hin : s.input = lfByte :: rest) :
    step s = .next (flush (takeByte s rest)) := by
  rw [step_of_input_cons hin, hm, decode_text_lfByte, exec_lf]

/-- After the introducer a byte 0x0A is a header of length 10 (R97). -/
theorem step_lf_of_escapePending {s : State} {rest : List Byte} (hm : s.mode = .escapePending)
    (hin : s.input = lfByte :: rest) : step s = .next (graphicsHeader (takeByte s rest) lfByte) := by
  have hlt : lfByte.toNat < 0xF8 := by decide
  rw [step_of_input_cons hin, hm, decode_escapePending_of_lt _ hlt, exec_graphicsMode _ hlt]

/-- A byte 0x0A leaves a fresh line in TEXT, and in the other modes it brings TEXT nearer. -/
theorem step_lf {s : State} {rest : List Byte} (hs : Legal s) (hp : ResyncPolicy s.cfg.gfxZero)
    (hin : s.input = lfByte :: rest) :
    ∃ t, step s = .next t ∧ t.input = rest ∧ t.cfg = s.cfg ∧ (FreshLine t ∨ bytesToText t < bytesToText s) := by
  cases hm : s.mode with
  | text => exact ⟨_, step_lf_of_text hm hin, rfl, rfl, .inl ⟨hm, rfl, rfl, rfl⟩⟩
  | escapePending =>
    refine ⟨_, step_lf_of_escapePending hm hin, ?_⟩
    rw [graphicsHeader_eq_update]
    refine ⟨rfl, rfl, .inr ?_⟩
    rw [bytesToText_of_escapePending hm, bytesToText_of_graphics rfl]
    have hlength : max 1 lfByte.toNat < 11 := by decide
    exact hlength
  | graphics =>
    refine ⟨_, step_graphics hm hin, ?_, ?_, .inr ?_⟩
    · rw [countDown_input, drawPayload_input, takeByte_input]
    · rw [countDown_cfg, drawPayload_cfg, takeByte_cfg]
    · have hmode : (drawPayload (takeByte s rest) lfByte).mode = .graphics := by rw [drawPayload_mode, takeByte_mode, hm]
      have hcount : CountLegal (drawPayload (takeByte s rest) lfByte) := by
        intro _
        rw [drawPayload_cfg, drawPayload_rem]
        exact hs.count hm
      have hless := bytesToText_countDown hcount (by rwa [drawPayload_cfg]) hmode
      rwa [bytesToText_of_graphics hmode, drawPayload_rem, takeByte_rem, ← bytesToText_of_graphics hm] at hless

/-- The resynchronisation under way: `left` is still to come before `rest`, all of it bytes 0x0A, and they are enough to
reach TEXT and flush there, unless the line is fresh already (R303). -/
structure Resyncing (cfg : Config) (rest left : List Byte) (s : State) : Prop where
  bytes : ∀ b ∈ left, b = lfByte
  input : s.input = left ++ rest
  cfg : s.cfg = cfg
  legal : Legal s
  progress : FreshLine s ∨ bytesToText s < left.length

theorem Resyncing.step {cfg : Config} {rest left : List Byte} {b : Byte} {s : State} (hp : ResyncPolicy cfg.gfxZero)
    (h : Resyncing cfg rest (b :: left) s) : ∃ t, step s = .next t ∧ Resyncing cfg rest left t := by
  obtain rfl : b = lfByte := h.bytes b List.mem_cons_self
  obtain ⟨t, hstep, hin, hcfg, hnext⟩ := step_lf h.legal (h.cfg ▸ hp) h.input
  refine ⟨t, hstep, fun b hb => h.bytes b (List.mem_cons_of_mem _ hb), hin, hcfg.trans h.cfg,
    stepKeepsLegal s t h.legal hstep, ?_⟩
  rcases hnext with hfresh | hnearer
  · exact .inl hfresh
  rcases h.progress with hfresh | hless
  · rw [bytesToText_of_text hfresh.mode] at hnearer
    exact absurd hnearer (Nat.not_lt_zero _)
  · exact .inr (Nat.lt_of_lt_of_le hnearer (Nat.le_of_lt_succ hless))

/-- After the last of the bytes the line is fresh. -/
theorem Resyncing.run {cfg : Config} {rest left : List Byte} {s : State} (hp : ResyncPolicy cfg.gfxZero)
    (h : Resyncing cfg rest left s) :
    ∃ t, Host.Core.run core left.length s = .next t ∧ FreshLine t ∧ t.input = rest ∧ t.cfg = cfg := by
  obtain ⟨t, hrun, hend⟩ := run_over_bytes (fun _ _ _ h => h.step hp) left.length left s (Nat.le_refl _) h
  rw [List.drop_length] at hend
  exact ⟨t, hrun, hend.progress.resolve_right (Nat.not_lt_zero _), hend.input, hend.cfg⟩

/-- In TEXT 0x1B arms the escape (R91, R151). -/
theorem step_esc_of_text {s : State} {rest : List Byte} (hm : s.mode = .text) (hin : s.input = escByte :: rest) :
    step s = .next (setMode (takeByte s rest) .escapePending) := by
  rw [step_of_input_cons hin, hm, decode_text_escByte, exec_escIntro]

/-- After the introducer 0xFF is a RESET under every escape map (R96, R171). -/
theorem step_FF_of_escapePending {s : State} {rest : List Byte} (hm : s.mode = .escapePending)
    (hin : s.input = 0xFF#8 :: rest) : step s = .next (doReset (takeByte s rest)) := by
  have hdecode : decode s.cfg.escMap .escapePending 0xFF#8 = .reset := congrArg EscapeCode.toInstr (resolve_FF s.cfg.escMap)
  rw [step_of_input_cons hin, hm, hdecode, exec_reset]

/-- From column 0 both values of RESET_COLUMN leave column 0 (R171). -/
theorem resetCol_of_col_zero {s : State} (h : s.col = 0) : resetCol s = 0 := by
  unfold resetCol
  split
  · rfl
  · exact h

/-- RESET clears all but the page and, under KEEP, the column; where these are clear it leaves the construction values. -/
theorem atConstruction_doReset {s : State} (hcol : s.col = 0) (hpage : s.page = []) : AtConstruction (doReset s) := by
  refine ⟨rfl, rfl, rfl, rfl, rfl, ?_, fun c => ?_, rfl⟩
  · rw [doReset_col, resetCol_of_col_zero hcol]
    rfl
  · rw [doReset_page, hpage, Memory.read_nil]

/-- On a fresh line the introducer and 0xFF are a RESET that leaves nothing behind (R171, R303). -/
theorem FreshLine.run_reset {s : State} (h : FreshLine s) {rest : List Byte} (hin : s.input = [0x1B#8, 0xFF#8] ++ rest) :
    ∃ t, Host.Core.run core 2 s = .next t ∧ AtConstruction t ∧ t.input = rest ∧ t.cfg = s.cfg :=
  ⟨_, (run_succ_of_step (step_esc_of_text h.mode hin) 1).trans
      ((run_succ_of_step (step_FF_of_escapePending rfl rfl) 0).trans (run_zero _)),
    atConstruction_doReset h.col h.page, rfl, rfl⟩

end Sys2Proof.Machine

/-! The statements of 70_reset_and_hazards.md. -/

namespace Sys2Proof.Machine

open Sys2Proof

/-- Settles O46: the other session differs in the input port only. -/
theorem noLookahead : Obligations.NoLookahead := by
  unfold Obligations.NoLookahead
  intro i s t later at' h
  exact exec_inSession [] later at' h

/-- Settles O47: 248 bytes are one more than lead to TEXT from any legal state, so the last of them leaves a fresh line, and
the RESET is met on it. -/
theorem resynchronisationReachesConstruction : Obligations.ResynchronisationReachesConstruction := by
  unfold Obligations.ResynchronisationReachesConstruction
  intro s rest hs hp hin
  rw [List.append_assoc] at hin
  have hstart : Resyncing s.cfg ([0x1B#8, 0xFF#8] ++ rest) (List.replicate 248 lfByte) s := by
    refine ⟨fun _ => List.eq_of_mem_replicate, hin, rfl, hs, .inr ?_⟩
    rw [List.length_replicate]
    exact Nat.lt_succ_of_le (bytesToText_le hs hp)
  obtain ⟨u, hrun, hfresh, hinput, hcfg⟩ := hstart.run hp
  rw [List.length_replicate] at hrun
  obtain ⟨t, hreset, hconstruction, hinput', hcfg'⟩ := hfresh.run_reset hinput
  exact ⟨t, (run_add_of_run hrun 2).trans hreset, hconstruction, hinput', hcfg'.trans hcfg⟩

end Sys2Proof.Machine
